-- ==== Sys2Proof/Word.lean ====
section
/-! DEFINITION. The machine's plain word types (R8, R12): 8-bit wire bytes and 32-bit CSR words. -/

namespace Sys2Proof

/-- `u8` of R12: one byte on the wire. -/
abbrev Byte := BitVec 8

/-- `u32` of R12: one CSR, one ASIC register value, one timer. -/
abbrev Word := BitVec 32

end Sys2Proof
end

