-- ==== Sys2Proof/Config.lean ====
section
/-! DEFINITION. What is fixed for one machine and what stays free: the parameters of R7 with their constraints, the
OPEN parameters as values nothing can evaluate, the inputs the agents of R9 present, and the free draw of the
environment. -/

namespace Sys2Proof

/-- `P_FAIL_THRESHOLD` (R7, fixed). -/
def Config.failThreshold : Nat := 3

/-- `P_RX_DEPTH` (R7, fixed): the receive FIFO's capacity in bytes. -/
def Config.rxDepth : Nat := 65

/-- `P_BLOCK_MAX` (R7, fixed): the most words of one read and the most addresses of one block list. -/
def Config.blockMax : Nat := 16

/-- The numerator of `P_TIMEOUT_MARGIN` = 14/10 (R7, fixed), times the 10^6 microseconds of a second and over 10:
the 1 400 000 of R105. -/
def Config.marginMicros : Nat := 1400000

/-- The parameters R7 marks OPEN: the spec gives them a constraint and no value (D13, D26, D30). -/
structure OpenParams where
  /-- `P_TURNAROUND_BITS`. -/
  turnaroundBits : Nat
  /-- `P_MAGIC_OFFSET_ON`. -/
  magicOffsetOn : Word
  /-- `P_MAGIC_OFFSET_OFF`. -/
  magicOffsetOff : Word
  /-- `P_ADDR_DSP_CFG_CKSUM`. -/
  addrDspCfgCksum : Byte
  /-- `P_ADDR_SYS_BLK_ADDR[0..3]` in the SPI wire modes. -/
  addrSysBlk : Vector Byte 4
  /-- `P_ADDR_SYS_BLK_ADDR[0..3]` when WIRE_MODE = UART, where R7 asks more of it (log 16). -/
  addrSysBlkUart : Vector Byte 4
  deriving DecidableEq, Repr

/-- "each ≤ 0x7F", what R7 asks of addresses when WIRE_MODE = UART. -/
def Config.fitUart (l : List Byte) : Bool := l.all (fun a => decide (a.toNat ≤ 0x7F))

/-- "four distinct 8-bit values, none 0x7F or 0xFF" (R7). -/
def OpenParams.sysBlkOk (v : Vector Byte 4) : Bool :=
  decide v.toList.Nodup && v.toList.all (fun a => decide (a ≠ 0x7F) && decide (a ≠ 0xFF))

/-- The constraints R7 puts on the OPEN parameters. The UART addresses are the others, unless those do not fit. -/
def OpenParams.wf (o : OpenParams) : Bool :=
  decide (o.turnaroundBits ≤ 4000)
    && decide (o.magicOffsetOn ≠ o.magicOffsetOff)
    && decide (o.addrDspCfgCksum.toNat < 0x7F)
    && decide (0x07 < o.addrDspCfgCksum.toNat)
    && decide (¬ (0x25 ≤ o.addrDspCfgCksum.toNat ∧ o.addrDspCfgCksum.toNat ≤ 0x3A))
    && OpenParams.sysBlkOk o.addrSysBlk
    && OpenParams.sysBlkOk o.addrSysBlkUart
    && Config.fitUart o.addrSysBlkUart.toList
    && decide (Config.fitUart o.addrSysBlk.toList = true → o.addrSysBlkUart = o.addrSysBlk)

/-- The example values R7 gives the OPEN parameters, for the vectors of `95_test_vectors.md` only. -/
def OpenParams.vectors : OpenParams where
  turnaroundBits := 20
  magicOffsetOn := 0x0000A55A
  magicOffsetOff := 0x00005A5A
  addrDspCfgCksum := 0x3B
  addrSysBlk := #v[0x70, 0x71, 0x72, 0x73]
  addrSysBlkUart := #v[0x70, 0x71, 0x72, 0x73]

/-- All parameters of R7 that a model takes as arguments; a field's default is the table's. -/
structure ParamValues where
  /-- `P_BPB_UART`. -/
  bpbUart : Nat := 11
  /-- `P_BPB_SPI`. -/
  bpbSpi : Nat := 8
  /-- `P_CS_SETUP_US`. -/
  csSetupUs : Nat := 1
  /-- `P_CS_HOLD_US`. -/
  csHoldUs : Nat := 1
  /-- `P_SPI4_IDLE_US`. -/
  spi4IdleUs : Nat := 50
  /-- `P_SPI3_PREOP_US`. -/
  spi3PreopUs : Nat := 400
  /-- `P_RESET_PRE_HIGH_US`. -/
  resetPreHighUs : Nat := 1
  /-- `P_RESET_LOW_US`. -/
  resetLowUs : Nat := 71000
  /-- `P_RESET_WAIT_US`. -/
  resetWaitUs : Nat := 2150
  /-- `P_MIRROR_PAIRS`: (source address, destination address). -/
  mirrorPairs : List (Byte × Byte) := []
  /-- `P_POST_CKSUM_WRITES` in the SPI wire modes: (address, value). -/
  postCksumWrites : List (Byte × Word) := []
  /-- `P_POST_CKSUM_WRITES` when WIRE_MODE = UART, where R7 asks more of it (log 16). -/
  postCksumWritesUart : List (Byte × Word) := postCksumWrites
  /-- `P_CAL_FRAC_BITS` (F). -/
  calFracBits : Nat := 16
  /-- The OPEN parameters. -/
  opn : OpenParams
  deriving DecidableEq, Repr

/-- An address of the calibration range 0x25–0x3A of the configuration image (R46, C3). -/
def ParamValues.calAddr (a : Byte) : Bool := decide (0x25 ≤ a.toNat ∧ a.toNat ≤ 0x3A)

/-- R7's constraint on `P_MIRROR_PAIRS`. -/
def ParamValues.mirrorOk (ps : List (Byte × Byte)) : Bool :=
  ps.all (fun p => ParamValues.calAddr p.1 && ParamValues.calAddr p.2 && decide (p.1 ≠ p.2))
    && ps.all (fun p => decide (p.2 ∉ ps.map Prod.fst))
    && decide (ps.map Prod.snd).Nodup

/-- R7's constraint on `P_POST_CKSUM_WRITES` in every wire mode. -/
def ParamValues.postOk (ps : List (Byte × Word)) : Bool :=
  decide (ps.length ≤ 8) && ps.all (fun p => decide (p.1 ≠ 0x7F) && decide (p.1 ≠ 0xFF))

/-- R7's constraints on every parameter. The UART writes are the others, unless those do not fit. -/
def ParamValues.wf (c : ParamValues) : Bool :=
  decide (1 ≤ c.bpbUart) && decide (1 ≤ c.bpbSpi)
    && decide (1 ≤ c.csSetupUs) && decide (1 ≤ c.csHoldUs)
    && decide (50 ≤ c.spi4IdleUs) && decide (400 ≤ c.spi3PreopUs)
    && decide (1 ≤ c.resetPreHighUs) && decide (70000 < c.resetLowUs) && decide (2150 ≤ c.resetWaitUs)
    && ParamValues.mirrorOk c.mirrorPairs
    && ParamValues.postOk c.postCksumWrites
    && ParamValues.postOk c.postCksumWritesUart
    && Config.fitUart (c.postCksumWritesUart.map Prod.fst)
    && decide (Config.fitUart (c.postCksumWrites.map Prod.fst) = true → c.postCksumWritesUart = c.postCksumWrites)
    && decide (c.calFracBits ≤ 16)
    && c.opn.wf

/-- The parameters of a machine: values with the proof that they meet every constraint, so that Lean "checks each
constraint at elaboration" (R7). Values that do not meet one make no machine. -/
structure Params extends ParamValues where
  /-- R7's constraints hold. -/
  legal : toParamValues.wf = true := by decide
  deriving DecidableEq, Repr

/-- The parameters of `95_test_vectors.md`: R7's defaults and example values. -/
def Params.vectors : Params := { opn := OpenParams.vectors }

/-- FREE VALUE (log 2). A value of the given type of which nothing is known; it has no body. -/
opaque Config.freeOf {α : Type} [Inhabited α] : α

/-- The OPEN parameters of this machine (log 2): values that meet R7's constraints, and nothing else is known of them.
The second argument only shows Lean that such values exist. -/
def Config.openParams : { o : OpenParams // o.wf = true } :=
  @Config.freeOf _ ⟨⟨OpenParams.vectors, by decide⟩⟩

/-- R7's defaults meet their constraints beside any OPEN values that meet theirs. -/
theorem ParamValues.defaults_wf (o : OpenParams) (h : o.wf = true) : ({ opn := o } : ParamValues).wf = true := by
  simp [ParamValues.wf, ParamValues.mirrorOk, ParamValues.postOk, Config.fitUart, h]

/-- The parameters of the machine after reset: R7's defaults, and the OPEN ones free. -/
def Config.params : Params where
  opn := Config.openParams.1
  legal := ParamValues.defaults_wf _ Config.openParams.2

/-- One step of one agent (R9), with the inputs of R174 that the step samples. -/
inductive Event
  /-- Host agent: a CSR read of `size` bytes at byte offset `off` (R57). -/
  | hostRead (off : BitVec 12) (size : Nat)
  /-- Host agent: a CSR write of `size` bytes at byte offset `off` (R57). -/
  | hostWrite (off : BitVec 12) (size : Nat) (data : Word)
  /-- Engine agent: one internal step; `txDone` is the level of the input `tx_done` at it (R109). -/
  | engine (txDone : Bool)
  /-- Channel-TX agent: a step with `tx_ready` = 1 (R109). -/
  | channelTx
  /-- Channel-RX agent: a step with `rx_valid` = 1 and this `rx_byte` (R111). -/
  | channelRx (rxByte : Byte)
  /-- Tick agent: one pulse of `tick_us` (R108). -/
  | tick
  /-- The input `rst` takes this level (R182). -/
  | rst (level : Bool)
  deriving DecidableEq, Repr, Inhabited

/-- FREE VALUE (log 1). The agent step that comes next when none is listed: "free draws under no law" (R9). The
argument is the number of the draw. -/
opaque Config.environment : Nat → Event

end Sys2Proof
end

