-- ==== Sys2Proof/Syntax.lean ====
section
/-! DEFINITION. The instructions: one constructor per row of spec/opcode_table.json. -/

namespace Sys2Proof

/-- The four wire operations (R70, R74) and the seventeen host commands (R81, R82). A word count is the count N
itself, not the field NM1 = N − 1; `dir` is CMD.DIR. -/
inductive Instr
  /-- WIRE_WRITE (R91): CMD1.DEV, CMD2, D0..D3. -/
  | wireWrite (dev : BitVec 2) (addr : Byte) (data : Word)
  /-- WIRE_BROADCAST (R92). -/
  | wireBroadcast (dev : BitVec 2) (addr : Byte) (data : Word)
  /-- WIRE_READ (R93): `n` words from CMD2. -/
  | wireRead (n : Nat) (dev : BitVec 2) (addr : Byte)
  /-- WIRE_BLOCK (R94): `n` words of the configured list. -/
  | wireBlock (n : Nat) (dev : BitVec 2)
  /-- READ (R126): `n` registers from `a`. -/
  | read (n : Nat) (a : Byte)
  /-- WRITE (R127): DATA to register `a`. -/
  | write (a : Byte)
  /-- BROADCAST (R128): DATA to register `a` of every device. -/
  | broadcast (a : Byte)
  /-- CFG_BLOCK (R129): the first `n` addresses of BLK_LIST. -/
  | cfgBlock (n : Nat)
  /-- BLOCK_READ (R130). -/
  | blockRead (n : Nat)
  /-- LOAD_CONFIG (R131). -/
  | loadConfig
  /-- HEX2BCD (R137). -/
  | hex2bcd
  /-- CALRMS P (R151). -/
  | calrmsP (dir : Bool)
  /-- CALRMS Q (R152). -/
  | calrmsQ (dir : Bool)
  /-- CALRMS PB (R153). -/
  | calrmsPb (dir : Bool)
  /-- CALRMS QB (R154). -/
  | calrmsQb (dir : Bool)
  /-- CALRMS SA (R155). -/
  | calrmsSa (dir : Bool)
  /-- CALRMS SB (R156). -/
  | calrmsSb (dir : Bool)
  /-- CALRMS U (R157). -/
  | calrmsU (dir : Bool)
  /-- CALRMS I1 (R158). -/
  | calrmsI1 (dir : Bool)
  /-- CALRMS I2 (R159). -/
  | calrmsI2 (dir : Bool)
  /-- CALRMS HZ (R160). -/
  | calrmsHz (dir : Bool)
  deriving DecidableEq, Repr

end Sys2Proof
end

