-- ==== Sys2Proof/WellFormed.lean ====
section
/-! DEFINITION. What an instruction's operands must meet to have an encoding. -/

namespace Sys2Proof

/-- A word or address count: "N ranges over 1–16" (R75, R80). -/
def countOk (n : Nat) : Bool := decide (1 ≤ n) && decide (n ≤ Config.blockMax)

/-- A CMD2 byte: "CMD2[7] = 0 always" (R76). -/
def cmd2Ok (a : Byte) : Bool := decide (a.toNat < 0x80)

/-- The instruction has an encoding. Address ranges of the host commands are no part of this: they are checked at
acceptance and give PreconditionViolation (R83). -/
def Instr.wf : Instr → Bool
  | .wireWrite _ addr _ => cmd2Ok addr
  | .wireBroadcast _ addr _ => cmd2Ok addr
  | .wireRead n _ addr => countOk n && cmd2Ok addr
  | .wireBlock n _ => countOk n
  | .read n _ => countOk n
  | .write _ => true
  | .broadcast _ => true
  | .cfgBlock n => countOk n
  | .blockRead n => countOk n
  | .loadConfig => true
  | .hex2bcd => true
  | .calrmsP _ => true
  | .calrmsQ _ => true
  | .calrmsPb _ => true
  | .calrmsQb _ => true
  | .calrmsSa _ => true
  | .calrmsSb _ => true
  | .calrmsU _ => true
  | .calrmsI1 _ => true
  | .calrmsI2 _ => true
  | .calrmsHz _ => true

end Sys2Proof
end

