-- ==== Sys2Proof/Decode.lean ====
section
/-! DEFINITION. The two encodings of `30_encoding.md`: the host command word (R80–R84) and the wire frame (R70–R79),
each decoded by a total function that rejects by name, and encoded from the same field positions. -/

namespace Sys2Proof

/-- Why a word or a byte sequence is no instruction. -/
inductive DecodeError
  /-- CMD.OP is 0x0 or 0x9–0xF (R81, R84). -/
  | reservedOp
  /-- A CALRMS kind above 9 (R82). -/
  | reservedKind
  /-- CMD[31:17] ≠ 0 (R83 b). -/
  | reservedBits
  /-- A field that R83 (c) wants 0 for this command is not 0. -/
  | unusedField
  /-- The byte sequence ends before its frame does. -/
  | frameTooShort
  /-- A Write or Broadcast with NM1 ≠ 0, which the RPE never sends (R75). -/
  | wireCount
  /-- CMD2 ≥ 0x80, which the RPE never sends (R76). -/
  | wireCmd2
  /-- A Block frame whose CMD2 is not 0x00 (R76). -/
  | blockCmd2
  /-- A UART frame whose first byte is not 0x7D (R71). -/
  | noHeader
  /-- The last byte is not the checksum of CMD1, CMD2 and the data (R78, R87). -/
  | badChecksum
  /-- Bytes after the checksum (R79). -/
  | trailingBytes
  deriving DecidableEq, Repr

/-- What a decoder answers: an instruction, or a rejection by name. -/
abbrev Decoded (α : Type) := Except DecodeError α

/-! ### Counts -/

/-- The field NM1 = N − 1 of a count N (R73, R80). -/
def nm1Of (n : Nat) : BitVec 4 := BitVec.ofNat 4 (n - 1)

/-- The count N that a field NM1 stands for. -/
def countOf (nm1 : BitVec 4) : Nat := nm1.toNat + 1

/-! ### The host command word (R80) -/

/-- CMD[3:0] = OP. -/
def cmdOp (w : Word) : BitVec 4 := w.extractLsb' 0 4
/-- CMD[7:4] = NM1. -/
def cmdNm1 (w : Word) : BitVec 4 := w.extractLsb' 4 4
/-- CMD[15:8] = ARG8. -/
def cmdArg8 (w : Word) : Byte := w.extractLsb' 8 8
/-- CMD[16] = DIR. -/
def cmdDir (w : Word) : Bool := w.getLsbD 16
/-- CMD[31:17], reserved. -/
def cmdReserved (w : Word) : BitVec 15 := w.extractLsb' 17 15

/-- The command word with these fields and its reserved bits 0 (R80). -/
def cmdWord (op nm1 : BitVec 4) (arg8 : Byte) (dir : Bool) : Word :=
  (0 : BitVec 15) ++ BitVec.ofBool dir ++ arg8 ++ nm1 ++ op

/-- The CALRMS command of a kind code (R82). -/
def calrmsOfKind (kind : Byte) (dir : Bool) : Decoded Instr :=
  match kind.toNat with
  | 0 => .ok (.calrmsP dir)
  | 1 => .ok (.calrmsQ dir)
  | 2 => .ok (.calrmsPb dir)
  | 3 => .ok (.calrmsQb dir)
  | 4 => .ok (.calrmsSa dir)
  | 5 => .ok (.calrmsSb dir)
  | 6 => .ok (.calrmsU dir)
  | 7 => .ok (.calrmsI1 dir)
  | 8 => .ok (.calrmsI2 dir)
  | 9 => .ok (.calrmsHz dir)
  | _ => .error .reservedKind

/-- `i`, if the fields that R83 (c) wants 0 are. -/
def whenUnused (unused : Bool) (i : Decoded Instr) : Decoded Instr :=
  if unused then i else .error .unusedField

/-- The command of a word whose reserved bits are 0, by its OP (R81, R83 c). -/
def decodeCmdOp (w : Word) : Decoded Instr :=
  match (cmdOp w).toNat with
  | 1 => whenUnused (!cmdDir w) (.ok (.read (countOf (cmdNm1 w)) (cmdArg8 w)))
  | 2 => whenUnused (decide (cmdNm1 w = 0) && !cmdDir w) (.ok (.write (cmdArg8 w)))
  | 3 => whenUnused (decide (cmdNm1 w = 0) && !cmdDir w) (.ok (.broadcast (cmdArg8 w)))
  | 4 => whenUnused (decide (cmdArg8 w = 0) && !cmdDir w) (.ok (.cfgBlock (countOf (cmdNm1 w))))
  | 5 => whenUnused (decide (cmdArg8 w = 0) && !cmdDir w) (.ok (.blockRead (countOf (cmdNm1 w))))
  | 6 => whenUnused (decide (cmdNm1 w = 0) && decide (cmdArg8 w = 0) && !cmdDir w) (.ok .loadConfig)
  | 7 => whenUnused (decide (cmdNm1 w = 0) && decide (cmdArg8 w = 0) && !cmdDir w) (.ok .hex2bcd)
  | 8 => whenUnused (decide (cmdNm1 w = 0)) (calrmsOfKind (cmdArg8 w) (cmdDir w))
  | _ => .error .reservedOp

/-- A host command word (R83): accepted exactly when it is well-formed. -/
def decodeCmd (w : Word) : Decoded Instr :=
  if cmdReserved w = 0 then decodeCmdOp w else .error .reservedBits

/-! ### The wire frame (R70–R79) -/

/-- Wire opcode BROADCAST (R74). -/
def opBroadcast : BitVec 2 := 0
/-- Wire opcode READ (R74). -/
def opRead : BitVec 2 := 1
/-- Wire opcode WRITE (R74). -/
def opWrite : BitVec 2 := 2
/-- Wire opcode BLOCK (R74). -/
def opBlock : BitVec 2 := 3

/-- CMD1 (R73): NM1 in [7:4], DEV in [3:2], OP in [1:0]. -/
def cmd1 (nm1 : BitVec 4) (dev op : BitVec 2) : Byte := nm1 ++ dev ++ op

/-- CMD1[1:0] = OP (R73). -/
def cmd1Op (c1 : Byte) : BitVec 2 := c1.extractLsb' 0 2
/-- CMD1[3:2] = DEV (R73). -/
def cmd1Dev (c1 : Byte) : BitVec 2 := c1.extractLsb' 2 2
/-- CMD1[7:4] = NM1 (R73). -/
def cmd1Nm1 (c1 : Byte) : BitVec 4 := c1.extractLsb' 4 4

/-- `bytes_le` (R13): the four bytes of a word, least significant first. -/
def bytesLe (v : Word) : List Byte :=
  [v.extractLsb' 0 8, v.extractLsb' 8 8, v.extractLsb' 16 8, v.extractLsb' 24 8]

/-- `le32` (R13). -/
def le32 (b0 b1 b2 b3 : Byte) : Word := b3 ++ b2 ++ b1 ++ b0

/-- Σ L on 8 bits, with wrap-around. -/
def byteSum : List Byte → Byte
  | [] => 0
  | b :: bs => b + byteSum bs

/-- `CK` (R87): 0x33 plus the complement of the 8-bit sum. -/
def frameChecksum (l : List Byte) : Byte := 0x33 + ~~~ (byteSum l)

/-- The header byte of a UART request (R71). -/
def headerByte : Byte := 0x7D

/-- The header of a request: `[0x7D]` or nothing (R90). -/
def headerBytes (uart : Bool) : List Byte := if uart then [headerByte] else []

/-- CMD1, CMD2 and the data bytes of a wire operation (R70, R73–R77); a host command has no frame of its own. -/
def encodeBody : Instr → List Byte
  | .wireWrite dev addr data => cmd1 0 dev opWrite :: addr :: bytesLe data
  | .wireBroadcast dev addr data => cmd1 0 dev opBroadcast :: addr :: bytesLe data
  | .wireRead n dev addr => [cmd1 (nm1Of n) dev opRead, addr]
  | .wireBlock n dev => [cmd1 (nm1Of n) dev opBlock, 0x00]
  | _ => []

/-- A whole request frame: header, body and checksum (R70, R72, R78). -/
def encodeFrame (uart : Bool) (i : Instr) : List Byte :=
  headerBytes uart ++ encodeBody i ++ [frameChecksum (encodeBody i)]

/-- The data word in front of `rest`, for the two operations that carry one (R77). -/
def decodeData (rest : List Byte) (mk : Word → Instr) : Decoded (Instr × List Byte) :=
  match rest with
  | d0 :: d1 :: d2 :: d3 :: tail => .ok (mk (le32 d0 d1 d2 d3), tail)
  | _ => .error .frameTooShort

/-- The body that begins with CMD1 = `c1` and CMD2 = `c2`, by OP (R74–R76). -/
def decodeBodyOp (c1 c2 : Byte) (rest : List Byte) : Decoded (Instr × List Byte) :=
  if c2.toNat < 0x80 then
    if cmd1Op c1 = opWrite then
      if cmd1Nm1 c1 = 0 then decodeData rest (.wireWrite (cmd1Dev c1) c2) else .error .wireCount
    else if cmd1Op c1 = opBroadcast then
      if cmd1Nm1 c1 = 0 then decodeData rest (.wireBroadcast (cmd1Dev c1) c2) else .error .wireCount
    else if cmd1Op c1 = opRead then
      .ok (.wireRead (countOf (cmd1Nm1 c1)) (cmd1Dev c1) c2, rest)
    else if c2 = 0x00 then
      .ok (.wireBlock (countOf (cmd1Nm1 c1)) (cmd1Dev c1), rest)
    else .error .blockCmd2
  else .error .wireCmd2

/-- CMD1, CMD2 and the data bytes of one wire operation, and what stands after them. -/
def decodeBody : List Byte → Decoded (Instr × List Byte)
  | c1 :: c2 :: rest => decodeBodyOp c1 c2 rest
  | _ => .error .frameTooShort

/-- The checksum that ends a frame, after the body of `i` (R78). -/
def decodeTail (i : Instr) : List Byte → Decoded Instr
  | [] => .error .frameTooShort
  | [ck] => if ck = frameChecksum (encodeBody i) then .ok i else .error .badChecksum
  | _ :: _ :: _ => .error .trailingBytes

/-- A request frame without its header. -/
def decodeHeaderless (bytes : List Byte) : Decoded Instr :=
  match decodeBody bytes with
  | .ok (i, tail) => decodeTail i tail
  | .error e => .error e

/-- A request frame as it stands on the wire, in UART or in an SPI mode (R70–R72, R78, R79). -/
def decodeFrame (uart : Bool) (bytes : List Byte) : Decoded Instr :=
  if uart then
    match bytes with
    | [] => .error .frameTooShort
    | h :: rest => if h = headerByte then decodeHeaderless rest else .error .noHeader
  else decodeHeaderless bytes

/-! ### Both encodings together -/

/-- What an instruction is written as: a word for CMD, or the body of a frame. -/
inductive Encoding
  /-- A host command word (R80). -/
  | cmd (w : Word)
  /-- CMD1, CMD2 and the data bytes of a frame (R70); header and checksum follow from them (R71, R78). -/
  | wire (body : List Byte)
  deriving DecidableEq, Repr

/-- The encoding of an instruction, from R73–R77 and from R80–R82. -/
def encode : Instr → Encoding
  | .wireWrite dev addr data => .wire (encodeBody (.wireWrite dev addr data))
  | .wireBroadcast dev addr data => .wire (encodeBody (.wireBroadcast dev addr data))
  | .wireRead n dev addr => .wire (encodeBody (.wireRead n dev addr))
  | .wireBlock n dev => .wire (encodeBody (.wireBlock n dev))
  | .read n a => .cmd (cmdWord 1 (nm1Of n) a false)
  | .write a => .cmd (cmdWord 2 0 a false)
  | .broadcast a => .cmd (cmdWord 3 0 a false)
  | .cfgBlock n => .cmd (cmdWord 4 (nm1Of n) 0 false)
  | .blockRead n => .cmd (cmdWord 5 (nm1Of n) 0 false)
  | .loadConfig => .cmd (cmdWord 6 0 0 false)
  | .hex2bcd => .cmd (cmdWord 7 0 0 false)
  | .calrmsP dir => .cmd (cmdWord 8 0 0 dir)
  | .calrmsQ dir => .cmd (cmdWord 8 0 1 dir)
  | .calrmsPb dir => .cmd (cmdWord 8 0 2 dir)
  | .calrmsQb dir => .cmd (cmdWord 8 0 3 dir)
  | .calrmsSa dir => .cmd (cmdWord 8 0 4 dir)
  | .calrmsSb dir => .cmd (cmdWord 8 0 5 dir)
  | .calrmsU dir => .cmd (cmdWord 8 0 6 dir)
  | .calrmsI1 dir => .cmd (cmdWord 8 0 7 dir)
  | .calrmsI2 dir => .cmd (cmdWord 8 0 8 dir)
  | .calrmsHz dir => .cmd (cmdWord 8 0 9 dir)

/-- A body with nothing after it. -/
def decodeWholeBody (body : List Byte) : Decoded Instr :=
  match decodeBody body with
  | .ok (i, []) => .ok i
  | .ok (_, _ :: _) => .error .trailingBytes
  | .error e => .error e

/-- The instruction an encoding stands for. -/
def decode : Encoding → Decoded Instr
  | .cmd w => decodeCmd w
  | .wire body => decodeWholeBody body

/-- `k` bytes of the number `w`, its low byte first. -/
def bytesOfNat : Nat → Nat → List Byte
  | 0, _ => []
  | k + 1, w => BitVec.ofNat 8 w :: bytesOfNat k (w / 256)

/-- The instruction whose bits are `w`, as spec/opcode_table.json numbers them (log 8): a host row is the 32-bit word
of CMD; a wire row is the CMD1 byte, and the body bytes after it are zeros. -/
def decodeTableWord (nbits w : Nat) : Option Instr :=
  if nbits = 32 then
    match decodeCmd (BitVec.ofNat 32 w) with
    | .ok i => some i
    | .error _ => none
  else if nbits = 8 then
    match decodeBody (bytesOfNat 6 (w % 256)) with
    | .ok (i, _) => some i
    | .error _ => none
  else none

end Sys2Proof
end

