-- ==== Sys2Proof/Machine/State.lean ====
section
/-! DEFINITION. The machine's state as plain data: the CSRs the host writes, the CSRs the RPE writes, the hidden state
of R40, and the model's own record of the environment. -/

namespace Sys2Proof.Machine

/-- DEVCFG.WIRE_MODE (R21). -/
inductive WireMode
  /-- 0: UART 8-O-1, with the header. -/
  | uart
  /-- 1: SPI 4-wire. -/
  | spi4
  /-- 2: SPI 3-wire. -/
  | spi3
  deriving DecidableEq, Repr

/-- `st.offset_mode` (R52). -/
inductive OffsetMode
  | off
  | on
  | unknown
  deriving DecidableEq, Repr

/-- `st.eng_state` (R100). -/
inductive EngState
  | idle
  | guard
  | setup
  | sending
  | awaiting
  | hold
  deriving DecidableEq, Repr

/-- `st.seq_owner` (R40). -/
inductive Owner
  | none
  | host
  | recovery
  deriving DecidableEq, Repr

/-- `st.rec_phase` (R169). -/
inductive RecPhase
  | none
  | preHigh
  | low
  | postWait
  | reinit
  | reload
  deriving DecidableEq, Repr

/-- `st.outcome` (R40, R115). -/
inductive TxOutcome
  | none
  | complete
  | completeNoCheck
  | timedOut
  | cksumMismatch
  deriving DecidableEq, Repr

/-- The wire operation of a transaction descriptor (R119). -/
inductive WireOp
  | write
  | read
  | bcast
  | block
  deriving DecidableEq, Repr

/-- Why a transaction descriptor exists (R119). -/
inductive Purpose
  | cmd
  | switch
  | blkcfg
  | config
  deriving DecidableEq, Repr

/-- A transaction descriptor (op, a, v, purpose) (R119): `v` is the data of a WRITE or BCAST, or the word count of a
READ or BLOCK. -/
structure Descriptor where
  op : WireOp
  a : Byte
  v : Word
  purpose : Purpose
  deriving DecidableEq, Repr

/-- CAL_FLAGS[4:0] (R32). -/
structure CalFlags where
  sign : Bool
  creep : Bool
  ovf : Bool
  suppressed : Bool
  divZero : Bool
  deriving DecidableEq, Repr

/-- The CSRs that the host writes and the RPE only reads (R19, R21–R26, R29, R35–R37). -/
structure HostRegs where
  /-- DEVCFG.DEV_ADDR (R21). -/
  devAddr : BitVec 2
  /-- DEVCFG.WIRE_MODE (R21, R22). -/
  wireMode : WireMode
  /-- BAUD (R23). -/
  baud : Word
  /-- CALCFG[4:0] (R24); CALCFG[31:5] are reserved and read 0 (R20). -/
  calcfg : BitVec 5
  /-- DATA (R26). -/
  data : Word
  /-- IE[2:0] (R29). -/
  ie : BitVec 3
  /-- BLK_LIST[0..3] (R35). -/
  blkList : Vector Word 4
  /-- CFG_IMAGE[0..29] (R36). -/
  cfgImage : Vector Word 30
  /-- PG (R37). -/
  pg : Word
  /-- URMG (R37). -/
  urmg : Word
  /-- I1RMG (R37). -/
  i1rmg : Word
  /-- I2RMG (R37). -/
  i2rmg : Word
  /-- IB (R37). -/
  ib : Word
  /-- UN (R37). -/
  un : Word
  /-- S_RATIO (R37). -/
  sRatio : Word
  /-- FREQ_CONST (R37). -/
  freqConst : Word
  /-- I_SUPPRESS_TH (R37). -/
  iSuppressTh : Word
  deriving DecidableEq, Repr

/-- The CSR contents that the RPE writes (R27–R34). STATUS.BUSY and the views of hidden state are computed, not stored. -/
structure RpeRegs where
  /-- STATUS.DONE (R27). -/
  done : Bool
  /-- STATUS.HEALTH: true is Resetting (R168). -/
  resetting : Bool
  /-- STATUS.UNHEALTHY_EVT. -/
  unhealthyEvt : Bool
  /-- STATUS.RECOVERED. -/
  recovered : Bool
  /-- STATUS.RECOVERY_FAILED. -/
  recoveryFailed : Bool
  /-- STATUS.CMD_OVERRUN. -/
  cmdOverrun : Bool
  /-- STATUS.WR_LOCKED. -/
  wrLocked : Bool
  /-- STATUS.RX_OVERFLOW. -/
  rxOverflow : Bool
  /-- STATUS.LOCK. -/
  lock : Bool
  /-- ERR.ERR_CODE (R28). -/
  errCode : BitVec 4
  /-- ERR.ERR_CAUSE. -/
  errCause : BitVec 4
  /-- ERR.ERR_STEP. -/
  errStep : BitVec 8
  /-- ERR.REC_CAUSE. -/
  recCause : BitVec 4
  /-- CKSUM_ERR_CNT (R30). -/
  cksumErrCnt : Word
  /-- TIMEOUT_CNT (R30). -/
  timeoutCnt : Word
  /-- CAL_OUT (R31). -/
  calOut : Word
  /-- CAL_FLAGS[4:0] (R32). -/
  calFlags : CalFlags
  /-- LAST_CKSUM (R33). -/
  lastCksum : Word
  /-- RESULT[0..15] (R34). -/
  result : Vector Word 16
  deriving DecidableEq, Repr

/-- The hidden state of R40. -/
structure Hidden where
  /-- `st.cmd`: the accepted command word. -/
  cmd : Word
  /-- `st.seq_list` (R41). -/
  seqList : List Descriptor
  /-- `st.seq_step` (R41): the analogue of a program counter (R18). -/
  seqStep : Nat
  /-- `st.seq_owner`; STATUS.BUSY is `owner = HOST`. -/
  seqOwner : Owner
  /-- `st.eng_state`. -/
  engState : EngState
  /-- `st.tx_frame`. -/
  txFrame : List Byte
  /-- `st.tx_idx`. -/
  txIdx : Nat
  /-- `st.exp_n`. -/
  expN : Nat
  /-- `st.wait_ticks`. -/
  waitTicks : Word
  /-- `st.gap_ticks`. -/
  gapTicks : Word
  /-- `st.rx_fifo`, oldest byte first. -/
  rxFifo : List Byte
  /-- `st.outcome`. -/
  outcome : TxOutcome
  /-- `st.resp_words`. -/
  respWords : List Word
  /-- `st.fail_count`. -/
  failCount : Nat
  /-- `st.offset_mode`. -/
  offsetMode : OffsetMode
  /-- `st.blk_valid`. -/
  blkValid : Bool
  /-- `st.blk_count`. -/
  blkCount : Nat
  /-- `st.rec_phase`. -/
  recPhase : RecPhase
  /-- `st.creep_a`. -/
  creepA : Bool
  /-- `st.creep_b`. -/
  creepB : Bool
  /-- `st.line_low`. -/
  lineLow : Bool
  deriving DecidableEq, Repr

/-- What the bus interface answered to the last host access (R57): the MODEL's own record (log 4). -/
inductive BusResponse
  /-- No access yet. -/
  | none
  /-- A write was taken. -/
  | ack
  /-- A read returned this word. -/
  | data (w : Word)
  /-- The error response of R57 to a write. -/
  | writeError
  /-- The error response of R57 to a read, with the data it carries. -/
  | readError (w : Word)
  deriving DecidableEq, Repr

/-- The MODEL's own fields (logs 1–5): no rule of the spec names them as state. -/
structure Env where
  /-- The parameters of R7, fixed for the machine: no step changes them. -/
  cfg : Params
  /-- The level of the input `rst` (R174, R182). -/
  rst : Bool
  /-- The agent steps that are to come next, the first of them first (log 1). -/
  script : List Event
  /-- How many agent steps were drawn from `Config.environment` (log 1). -/
  draws : Nat
  /-- The bus interface's answer to the last host access. -/
  bus : BusResponse
  /-- The bytes the channel has taken, oldest first: "the sequence of frames on the channel" (R175). -/
  sent : List Byte
  deriving DecidableEq, Repr

/-- The whole machine. -/
structure State where
  /-- The CSRs the host writes. -/
  host : HostRegs
  /-- The CSR contents the RPE writes. -/
  rpe : RpeRegs
  /-- The hidden state. -/
  st : Hidden
  /-- The model's own fields. -/
  env : Env
  deriving DecidableEq, Repr

/-- Why a step stops. -/
inductive Fault
  /-- Raised by a transaction end at which the sequencer has nothing to react with: no descriptor at `st.seq_step`, no
  outcome, no owner, or an `st.cmd` that is no bus command. R122 gives no effect there. SAFE: no state that a run
  reaches raises it (log 6). -/
  | strayTransaction
  deriving DecidableEq, Repr

/-- Why an instruction has no meaning. -/
inductive Refusal
  /-- Raised by an arm of `exec` for an instruction that is not modelled yet. SAFE: the model says nothing of it. -/
  | notModelled (mnemonic : String)
  deriving DecidableEq, Repr

/-- Reset values of the CSRs the host writes (R19, R44). -/
def HostRegs.reset : HostRegs where
  devAddr := 0
  wireMode := .uart
  baud := 0
  calcfg := 1
  data := 0
  ie := 0
  blkList := Vector.replicate 4 0
  cfgImage := Vector.replicate 30 0
  pg := 0
  urmg := 0
  i1rmg := 0
  i2rmg := 0
  ib := 0
  un := 0
  sRatio := 0
  freqConst := 0
  iSuppressTh := 0

/-- CAL_FLAGS[4:0] all 0. -/
def CalFlags.clear : CalFlags := ⟨false, false, false, false, false⟩

/-- Reset values of the CSR contents the RPE writes (R19, R27, R44). -/
def RpeRegs.reset : RpeRegs where
  done := false
  resetting := false
  unhealthyEvt := false
  recovered := false
  recoveryFailed := false
  cmdOverrun := false
  wrLocked := false
  rxOverflow := false
  lock := false
  errCode := 0
  errCause := 0
  errStep := 0
  recCause := 0
  cksumErrCnt := 0
  timeoutCnt := 0
  calOut := 0
  calFlags := CalFlags.clear
  lastCksum := 0
  result := Vector.replicate 16 0

/-- Reset values of the hidden state (R44). -/
def Hidden.reset : Hidden where
  cmd := 0
  seqList := []
  seqStep := 0
  seqOwner := .none
  engState := .idle
  txFrame := []
  txIdx := 0
  expN := 0
  waitTicks := 0
  gapTicks := 0
  rxFifo := []
  outcome := .none
  respWords := []
  failCount := 0
  offsetMode := .unknown
  blkValid := false
  blkCount := 0
  recPhase := .none
  creepA := false
  creepB := false
  lineLow := false

/-- The environment of a machine that was just reset: `rst` has fallen, nothing is listed, nothing was drawn or sent
(DESIGN CHOICE, logs 1–5). -/
def Env.reset : Env where
  cfg := Config.params
  rst := false
  script := []
  draws := 0
  bus := .none
  sent := []

/-- The machine right after reset (R44, R182, R184). -/
def State.reset : State where
  host := HostRegs.reset
  rpe := RpeRegs.reset
  st := Hidden.reset
  env := Env.reset

end Sys2Proof.Machine
end

