-- ==== Sys2Proof/Machine/Flags.lean ====
section
/-! DEFINITION. Every flag and every word the host reads flags from: STATUS, ERR, CAL_FLAGS, CALCFG's policy bits, IE's
enables, and the flags of the calibration pipeline. -/

namespace Sys2Proof.Machine

/-! ### STATUS (R27) -/

/-- STATUS.BUSY: `st.seq_owner` = HOST (R40). -/
def State.busy (s : State) : Bool := decide (s.st.seqOwner = .host)

/-- STATUS.OFFSET_MODE's code (R27). -/
def offsetCode : OffsetMode → BitVec 2
  | .off => 0
  | .on => 1
  | .unknown => 2

/-- STATUS.ENG_STATE's code (R27, R100). -/
def engCode : EngState → BitVec 3
  | .idle => 0
  | .guard => 1
  | .setup => 2
  | .sending => 3
  | .awaiting => 4
  | .hold => 5

/-- STATUS.REC_PHASE's code (R27, R169). -/
def recPhaseCode : RecPhase → BitVec 3
  | .none => 0
  | .preHigh => 1
  | .low => 2
  | .postWait => 3
  | .reinit => 4
  | .reload => 5

/-- The word a read of STATUS returns (R27). -/
def statusWord (s : State) : Word :=
  (0 : BitVec 5) ++ recPhaseCode s.st.recPhase ++ engCode s.st.engState ++ BitVec.ofNat 5 s.st.blkCount
    ++ (0 : BitVec 1) ++ BitVec.ofBool s.st.blkValid ++ offsetCode s.st.offsetMode ++ BitVec.ofNat 2 s.st.failCount
    ++ BitVec.ofBool s.rpe.lock ++ BitVec.ofBool s.rpe.rxOverflow ++ BitVec.ofBool s.rpe.wrLocked
    ++ BitVec.ofBool s.rpe.cmdOverrun ++ BitVec.ofBool s.rpe.recoveryFailed ++ BitVec.ofBool s.rpe.recovered
    ++ BitVec.ofBool s.rpe.unhealthyEvt ++ BitVec.ofBool s.rpe.resetting ++ BitVec.ofBool s.rpe.done
    ++ BitVec.ofBool s.busy

/-- The W1C write of STATUS (R27): bits 1 and 3–8 clear where `w` has a 1; every other bit ignores the write. -/
def clearStatus (w : Word) (r : RpeRegs) : RpeRegs :=
  { r with
    done := r.done && !w.getLsbD 1
    unhealthyEvt := r.unhealthyEvt && !w.getLsbD 3
    recovered := r.recovered && !w.getLsbD 4
    recoveryFailed := r.recoveryFailed && !w.getLsbD 5
    cmdOverrun := r.cmdOverrun && !w.getLsbD 6
    wrLocked := r.wrLocked && !w.getLsbD 7
    rxOverflow := r.rxOverflow && !w.getLsbD 8 }

/-! ### ERR (R28) and its codes (R161) -/

/-- ERR_CODE OK. -/
def codeOk : BitVec 4 := 0
/-- ERR_CODE ChecksumMismatch. -/
def codeChecksumMismatch : BitVec 4 := 1
/-- ERR_CODE Timeout. -/
def codeTimeout : BitVec 4 := 2
/-- ERR_CODE ConfigurationIncomplete. -/
def codeConfigurationIncomplete : BitVec 4 := 3
/-- ERR_CODE PreconditionViolation. -/
def codePreconditionViolation : BitVec 4 := 4
/-- ERR_CODE DeviceResetting. -/
def codeDeviceResetting : BitVec 4 := 5
/-- ERR_CODE BadCommand. -/
def codeBadCommand : BitVec 4 := 6

/-- `err(o)` of a failing outcome (R122): 1 for CKSUM_MISMATCH, 2 for TIMEDOUT; the other outcomes carry no error. -/
def errOf : TxOutcome → BitVec 4
  | .cksumMismatch => codeChecksumMismatch
  | .timedOut => codeTimeout
  | .complete => codeOk
  | .completeNoCheck => codeOk
  | .none => codeOk

/-- The word a read of ERR returns (R28). -/
def errWord (r : RpeRegs) : Word := (0 : BitVec 12) ++ r.recCause ++ r.errStep ++ r.errCause ++ r.errCode

/-! ### CALCFG (R24) -/

/-- CALCFG[0] = ANTICREEP_EN. -/
def HostRegs.antiCreepEn (h : HostRegs) : Bool := h.calcfg.getLsbD 0
/-- CALCFG[1] = CUR_SUPPRESS_EN. -/
def HostRegs.curSuppressEn (h : HostRegs) : Bool := h.calcfg.getLsbD 1
/-- CALCFG[2] = B_FACTOR_MODE. -/
def HostRegs.bFactorMode (h : HostRegs) : Bool := h.calcfg.getLsbD 2
/-- CALCFG[3] = FREQ_DIV. -/
def HostRegs.freqDiv (h : HostRegs) : Bool := h.calcfg.getLsbD 3
/-- CALCFG[4] = SIGN_SRC. -/
def HostRegs.signSrc (h : HostRegs) : Bool := h.calcfg.getLsbD 4

/-- The word a read of CALCFG returns. -/
def calcfgWord (h : HostRegs) : Word := (0 : BitVec 27) ++ h.calcfg

/-! ### DEVCFG (R21) -/

/-- DEVCFG.WIRE_MODE's code (R21). -/
def wireModeCode : WireMode → BitVec 2
  | .uart => 0
  | .spi4 => 1
  | .spi3 => 2

/-- WIRE_MODE after a write of `v` to DEVCFG[3:2]: write-any-read-legal, 3 leaves it (R22). -/
def wireModeWritten (old : WireMode) (v : BitVec 2) : WireMode :=
  if v = 0 then .uart else if v = 1 then .spi4 else if v = 2 then .spi3 else old

/-- The word a read of DEVCFG returns. -/
def devcfgWord (h : HostRegs) : Word := (0 : BitVec 28) ++ wireModeCode h.wireMode ++ h.devAddr

/-! ### CAL_FLAGS (R32) and the pipeline's flags -/

/-- The word a read of CAL_FLAGS returns (R32). -/
def calFlagsWord (s : State) : Word :=
  (0 : BitVec 22) ++ BitVec.ofBool s.st.creepB ++ BitVec.ofBool s.st.creepA ++ (0 : BitVec 3)
    ++ BitVec.ofBool s.rpe.calFlags.divZero ++ BitVec.ofBool s.rpe.calFlags.suppressed
    ++ BitVec.ofBool s.rpe.calFlags.ovf ++ BitVec.ofBool s.rpe.calFlags.creep ++ BitVec.ofBool s.rpe.calFlags.sign

/-- OVF of a value before BCD encoding (R136). -/
def overflows (q : Nat) : Bool := decide (10 ^ 8 ≤ q)

/-- The sign of a signed kind (R142): raw[31], or CMD.DIR where SIGN_SRC = 1. -/
def signOf (h : HostRegs) (raw cmd : Word) : Bool := if h.signSrc then cmd.getLsbD 16 else raw.getLsbD 31

/-- The anti-creep test of a power kind (R145), exact on naturals: `mag` below 1.5‰ of (IB/1000)·(UN/100), or a zero
factor; false while ANTICREEP_EN = 0. -/
def creepOf (fracBits : Nat) (h : HostRegs) (mag factor : Nat) : Bool :=
  h.antiCreepEn
    && (decide (factor = 0)
      || decide (2 * 10 ^ 8 * mag * 2 ^ fracBits < 3 * h.ib.toNat * h.un.toNat * factor))

/-- The near-zero current suppression (R147): `creep` is the flag of the paired power command. -/
def suppressOf (h : HostRegs) (creep : Bool) (q : Nat) : Bool :=
  h.curSuppressEn && creep && decide (q < h.iSuppressTh.toNat)

/-! ### The interrupt line (R172) -/

/-- The output `irq`. -/
def irq (s : State) : Bool :=
  (s.rpe.done && s.host.ie.getLsbD 0)
    || (s.rpe.unhealthyEvt && s.host.ie.getLsbD 1)
    || ((s.rpe.recovered || s.rpe.recoveryFailed) && s.host.ie.getLsbD 2)

/-- The word a read of IE returns (R29). -/
def ieWord (h : HostRegs) : Word := (0 : BitVec 29) ++ h.ie

end Sys2Proof.Machine
end

