-- ==== Sys2Proof/Machine/Operands.lean ====
section
/-! DEFINITION. What a command reads before it acts: the address forms and their range checks (R49–R53, R124), the
configuration list (R132, R133), and the calibration factors (R143, R144). -/

namespace Sys2Proof.Machine

/-! ### Arithmetic of the notation (R12, R15, R16) -/

/-- `div0(a, b)` (R12): 0 where b = 0. -/
def div0 (a b : Nat) : Nat := if b = 0 then 0 else a / b

/-- `ceil_div(a, b)` (R16): the least integer ≥ a / b. -/
def ceilDiv (a b : Nat) : Nat := (a + (b - 1)) / b

/-- `ticks(W)` (R15). -/
def ticks (w : Nat) : Nat := if w = 0 then 0 else w + 1

/-- `sat32(x + 1)` of a 32-bit counter (R108). -/
def satSucc (x : Word) : Word := if x = 0xFFFFFFFF then x else x + 1

/-! ### Addresses -/

/-- WIRE_MODE is UART. -/
def HostRegs.uart (h : HostRegs) : Bool := decide (h.wireMode = .uart)

/-- CMD2 of a host address: `a & 0x7F` (R76). -/
def cmd2Of (a : Byte) : Byte := a &&& 0x7F

/-- `m(a)`: the offset mode that reaches host address `a` (R49, R120). -/
def modeFor (a : Byte) : OffsetMode := if 0x80 ≤ a.toNat then .on else .off

/-- `magic(m)` (R51, R120): the constant whose write to 0x7F sets or clears the offset mode. -/
def magic (c : Params) (m : OffsetMode) : Word :=
  if m = .on then c.opn.magicOffsetOn else c.opn.magicOffsetOff

/-- R124's range check of READ: registers a … a + N − 1. -/
def readRangeOk (h : HostRegs) (n : Nat) (a : Byte) : Bool :=
  if h.uart then decide (a.toNat + n - 1 ≤ 0x7F)
  else decide (a.toNat + n - 1 ≤ 0xFE) && (decide (0x80 ≤ a.toNat) || decide (a.toNat + n - 1 ≤ 0x7F))

/-- R124's range check of WRITE. -/
def writeRangeOk (h : HostRegs) (a : Byte) : Bool :=
  if h.uart then decide (a.toNat ≤ 0x7F) else decide (a ≠ 0xFF)

/-- R124's range check of BROADCAST, the same in every wire mode. -/
def bcastRangeOk (a : Byte) : Bool := decide (a.toNat ≤ 0x7F)

/-- R124's check of BLOCK_READ: the handle is in force with the same count (R125). -/
def handleOk (st : Hidden) (n : Nat) : Bool := st.blkValid && decide (st.blkCount = n)

/-- `P_ADDR_SYS_BLK_ADDR[0..3]` in the wire mode in force (R7, log 16). -/
def sysBlkAddrs (c : Params) (uart : Bool) : Vector Byte 4 :=
  if uart then c.opn.addrSysBlkUart else c.opn.addrSysBlk

/-- `P_POST_CKSUM_WRITES` in the wire mode in force (R7, log 16). -/
def postWrites (c : Params) (uart : Bool) : List (Byte × Word) :=
  if uart then c.postCksumWritesUart else c.postCksumWrites

/-- `a` is one of `P_ADDR_SYS_BLK_ADDR[0..3]`. -/
def isSysBlkAddr (c : Params) (uart : Bool) (a : Byte) : Bool := (sysBlkAddrs c uart).toList.contains a

/-! ### Transaction descriptors -/

/-- The offset-switch descriptor SW (R120). -/
def switchTo (c : Params) (m : OffsetMode) : Descriptor := ⟨.write, 0x7F, magic c m, .switch⟩

/-- The descriptor list of READ (R126). -/
def readList (n : Nat) (a : Byte) : List Descriptor := [⟨.read, a, BitVec.ofNat 32 n, .cmd⟩]

/-- The descriptor list of WRITE (R127). -/
def writeList (a : Byte) (v : Word) : List Descriptor := [⟨.write, a, v, .cmd⟩]

/-- The descriptor list of BROADCAST (R128). -/
def bcastList (a : Byte) (v : Word) : List Descriptor := [⟨.bcast, a, v, .cmd⟩]

/-- The descriptor list of BLOCK_READ (R130). -/
def blockList (n : Nat) : List Descriptor := [⟨.block, 0, BitVec.ofNat 32 n, .cmd⟩]

/-- The descriptor list of CFG_BLOCK (R129): the four SYS_BLK_ADDR writes, j = 0..3. -/
def cfgBlockList (c : Params) (uart : Bool) (blk : Vector Word 4) : List Descriptor :=
  ((sysBlkAddrs c uart).toList.zip blk.toList).map (fun p => ⟨.write, p.1, p.2, .blkcfg⟩)

/-! ### The configuration sequence (R132, R133) -/

/-- CFG_IMAGE[i]. -/
def imageAt (img : Vector Word 30) (i : Nat) : Word := img.toList.getD i 0

/-- The ASIC address of image entry `i`: 0x00–0x07, then 0x25–0x3A (R36). -/
def configAddr (i : Nat) : Byte := if i < 8 then BitVec.ofNat 8 i else BitVec.ofNat 8 (0x25 + (i - 8))

/-- V[i] (R132): the image entry, or the entry its address mirrors. -/
def configValue (c : Params) (img : Vector Word 30) (i : Nat) : Word :=
  if i < 8 then imageAt img i
  else
    match c.mirrorPairs.find? (fun p => decide (p.2 = configAddr i)) with
    | some p => imageAt img (8 + (p.1.toNat - 0x25))
    | none => imageAt img i

/-- V[0..29]. -/
def configValues (c : Params) (img : Vector Word 30) : List Word := (List.range 30).map (configValue c img)

/-- Σ of 32-bit words modulo 2^32. -/
def wordSum : List Word → Word
  | [] => 0
  | v :: vs => v + wordSum vs

/-- `ck` (R133): 0xFFFFFFFF minus the sum of the thirty written values. -/
def configCksum (c : Params) (img : Vector Word 30) : Word := 0xFFFFFFFF - wordSum (configValues c img)

/-- `lc_list()` (R132): the image writes in ascending order, the checksum write, the post-checksum writes. -/
def lcList (c : Params) (uart : Bool) (img : Vector Word 30) : List Descriptor :=
  (List.range 30).map (fun i => ⟨.write, configAddr i, configValue c img i, .config⟩)
    ++ [⟨.write, c.opn.addrDspCfgCksum, configCksum c img, .config⟩]
    ++ (postWrites c uart).map (fun p => ⟨.write, p.1, p.2, .config⟩)

/-! ### Calibration operands -/

/-- The magnitude of a two's-complement raw sample (R141). -/
def magnitude (raw : Word) : Nat := if raw.getLsbD 31 then 2 ^ 32 - raw.toNat else raw.toNat

/-- PG_B, the channel-B power factor (R143). -/
def HostRegs.pgB (h : HostRegs) : Nat := if h.bFactorMode then 5 * h.pg.toNat / 9 else h.pg.toNat

end Sys2Proof.Machine
end

