-- ==== Sys2Proof/Machine/Codec.lean ====
section
/-! DEFINITION. FrameCodec: the request encoders (R90–R94) and the response decoders (R95–R97). Pure functions of their
operands, of DEV_ADDR and of the wire mode (R99). -/

namespace Sys2Proof.Machine

/-- EncodeWrite(addr, data) (R91): only addr[6:0] is used. -/
def encodeWrite (uart : Bool) (dev : BitVec 2) (addr : Byte) (data : Word) : List Byte :=
  encodeFrame uart (.wireWrite dev (cmd2Of addr) data)

/-- EncodeBroadcast(addr, data) (R92). -/
def encodeBroadcast (uart : Bool) (dev : BitVec 2) (addr : Byte) (data : Word) : List Byte :=
  encodeFrame uart (.wireBroadcast dev (cmd2Of addr) data)

/-- EncodeRead(addr, N) (R93). -/
def encodeRead (uart : Bool) (dev : BitVec 2) (addr : Byte) (n : Nat) : List Byte :=
  encodeFrame uart (.wireRead n dev (cmd2Of addr))

/-- EncodeBlockRead(N) (R94). -/
def encodeBlockRead (uart : Bool) (dev : BitVec 2) (n : Nat) : List Byte :=
  encodeFrame uart (.wireBlock n dev)

/-- The response length of a read of N words: 4N + 1 (R79). -/
def readRespLen (n : Nat) : Nat := 4 * n + 1

/-- The first `n` words of a byte sequence, each little-endian (R77). -/
def wordsOf : Nat → List Byte → List Word
  | n + 1, b0 :: b1 :: b2 :: b3 :: rest => le32 b0 b1 b2 b3 :: wordsOf n rest
  | _, _ => []

/-- DecodeWriteResp(req, resp) (R95): the one echoed byte equals the request's last. `none` is
Err(ChecksumMismatch). -/
def decodeWriteResp (req resp : List Byte) : Option (List Word) :=
  if resp.head? = req.getLast? then some [] else none

/-- DecodeReadResp(c1, c2, N, resp) (R96): the last byte is the checksum of CMD1, CMD2 and the data. `none` is
Err(ChecksumMismatch). -/
def decodeReadResp (c1 c2 : Byte) (n : Nat) (resp : List Byte) : Option (List Word) :=
  if resp[4 * n]? = some (frameChecksum (c1 :: c2 :: resp.take (4 * n))) then some (wordsOf n resp) else none

/-- DecodeBlockResp(c1, N, resp) (R97): a read response with CMD2 = 0x00. -/
def decodeBlockResp (c1 : Byte) (n : Nat) (resp : List Byte) : Option (List Word) := decodeReadResp c1 0x00 n resp

/-- The frame without its header: the engine finds CMD1 behind the header in UART and first in the SPI modes (R102). -/
def frameFields (uart : Bool) (frame : List Byte) : List Byte := if uart then frame.drop 1 else frame

/-- What the validation of a response finds (R114). -/
inductive Validation
  /-- The decoder answered Ok with these words. -/
  | ok (words : List Word)
  /-- The decoder answered Err(ChecksumMismatch). -/
  | mismatch
  /-- The frame is a Broadcast or no frame at all: no decoder applies. -/
  | noDecoder
  deriving DecidableEq, Repr

/-- A decoder's answer as a validation. -/
def Validation.ofDecoder : Option (List Word) → Validation
  | some words => .ok words
  | none => .mismatch

/-- Validation of the response to `frame`, by the frame's own operation (R102, R114). -/
def validate (uart : Bool) (frame resp : List Byte) : Validation :=
  match frameFields uart frame with
  | c1 :: c2 :: _ =>
    if cmd1Op c1 = opWrite then .ofDecoder (decodeWriteResp frame resp)
    else if cmd1Op c1 = opRead then .ofDecoder (decodeReadResp c1 c2 (countOf (cmd1Nm1 c1)) resp)
    else if cmd1Op c1 = opBlock then .ofDecoder (decodeBlockResp c1 (countOf (cmd1Nm1 c1)) resp)
    else .noDecoder
  | _ => .noDecoder

/-! ### Descriptors as frames (R119) -/

/-- The wire instruction that a descriptor issues. -/
def wireInstrOf (dev : BitVec 2) (d : Descriptor) : Instr :=
  match d.op with
  | .write => .wireWrite dev (cmd2Of d.a) d.v
  | .read => .wireRead d.v.toNat dev (cmd2Of d.a)
  | .bcast => .wireBroadcast dev (cmd2Of d.a) d.v
  | .block => .wireBlock d.v.toNat dev

/-- The frame column of R119's table. -/
def frameOf (uart : Bool) (dev : BitVec 2) (d : Descriptor) : List Byte :=
  match d.op with
  | .write => encodeWrite uart dev d.a d.v
  | .read => encodeRead uart dev d.a d.v.toNat
  | .bcast => encodeBroadcast uart dev d.a d.v
  | .block => encodeBlockRead uart dev d.v.toNat

/-- The response-length column of R119's table. -/
def respLen (d : Descriptor) : Nat :=
  match d.op with
  | .write => 1
  | .read => readRespLen d.v.toNat
  | .bcast => 0
  | .block => readRespLen d.v.toNat

end Sys2Proof.Machine
end

