-- ==== Sys2Proof/Machine/Ops.lean ====
section
/-! DEFINITION. The shared operations every meaning is built from: command completion (the RPE's analogue of taking an
exception, R167) and acceptance (its analogue of the return, R164), Execute (R101), the sequencer's Xfer and start_seq
(R120, R122), the block handle (R125), the offset mode (R121), the booking of outcomes (R116, R117), and the entry into
and the end of a recovery (R168, R170). -/

namespace Sys2Proof.Machine

/-! ### Completion and acceptance -/

/-- `finish(code, cause, step)` (R167): "the RPE's analogue of trap entry". It saves the code, the cause and the failing
step in ERR, sets DONE, and releases the sequencer if the host owned it. -/
def finish (code cause : BitVec 4) (step : Nat) (s : State) : State :=
  { s with
    rpe := { s.rpe with done := true, errCode := code, errCause := cause, errStep := BitVec.ofNat 8 step }
    st := { s.st with
      seqOwner := if s.busy then .none else s.st.seqOwner
      seqList := if s.busy then [] else s.st.seqList
      seqStep := if s.busy then 0 else s.st.seqStep } }

/-- A CMD write while BUSY = 1 is dropped (R163). -/
def overrun (s : State) : State := { s with rpe := { s.rpe with cmdOverrun := true } }

/-- Step (1) of acceptance (R164): "the host's next CMD write is the only return" (R167). -/
def latchCommand (w : Word) (s : State) : State :=
  { s with rpe := { s.rpe with done := false }, st := { s.st with cmd := w } }

/-- Steps (3) to (6) of acceptance for a bus command (R164): the health check, BAUD = 0, the precondition of R124, and
then STATUS.LOCK and the command itself. -/
def acceptBus (precondition : Bool) (run : State → State) (s : State) : State :=
  if s.rpe.resetting then finish codeDeviceResetting 0 0 s
  else if s.host.baud = 0 then finish codePreconditionViolation 0 0 s
  else if precondition then run { s with rpe := { s.rpe with lock := true } }
  else finish codePreconditionViolation 0 0 s

/-- A CMD write with a well-formed bus command (R163, R164). -/
def busCommand (w : Word) (precondition : Bool) (run : State → State) (s : State) : State :=
  if s.busy then overrun s else acceptBus precondition run (latchCommand w s)

/-- A CMD write with a well-formed pipeline command: it runs in either health state (R164, step 6). -/
def pipelineCommand (w : Word) (run : State → State) (s : State) : State :=
  if s.busy then overrun s else run (latchCommand w s)

/-- A CMD write with a word that is not well-formed (R84, R164 step 2). -/
def badCommand (w : Word) (s : State) : State :=
  if s.busy then overrun s else finish codeBadCommand 0 0 (latchCommand w s)

/-! ### The transaction engine's entry -/

/-- `Execute(frame, n)` (R101): "enabled only when `st.eng_state = IDLE`"; otherwise it does not take place (log 7). -/
def execute (frame : List Byte) (n : Nat) (s : State) : State :=
  if s.st.engState = .idle then
    { s with st := { s.st with
      txFrame := frame, txIdx := 0, expN := n, outcome := .none, respWords := [], engState := .guard } }
  else s

/-! ### The block-read handle (R125) -/

/-- The handle is cleared. -/
def clearHandle (s : State) : State := { s with st := { s.st with blkValid := false, blkCount := 0 } }

/-- The handle is set for N addresses (R125 a). -/
def setHandle (n : Nat) (s : State) : State := { s with st := { s.st with blkValid := true, blkCount := n } }

/-- The descriptor writes a SYS_BLK_ADDR register for another purpose than CFG_BLOCK's own (R125 b). -/
def touchesBlockList (c : Params) (uart : Bool) (d : Descriptor) : Bool :=
  (decide (d.op = .write) || decide (d.op = .bcast)) && decide (d.purpose ≠ .blkcfg) && isSysBlkAddr c uart d.a

/-- The pre-issue effect of a descriptor on the handle (R125 b), "whatever the outcome". -/
def preIssue (d : Descriptor) (s : State) : State :=
  { s with st := { s.st with
    blkValid := s.st.blkValid && !touchesBlockList s.env.cfg s.host.uart d
    blkCount := if touchesBlockList s.env.cfg s.host.uart d then 0 else s.st.blkCount } }

/-! ### The sequencer (R119–R122) -/

/-- The four conditions under which a switch goes ahead of `d` (R120). -/
def needsSwitch (s : State) (d : Descriptor) : Bool :=
  !s.host.uart && decide (d.op ≠ .block) && decide (cmd2Of d.a ≠ 0x7F) && decide (s.st.offsetMode ≠ modeFor d.a)

/-- `SW` inserted at `st.seq_step`, ahead of `d` (R120). -/
def insertSwitch (d : Descriptor) (s : State) : State :=
  { s with st := { s.st with
    seqList := s.st.seqList.take s.st.seqStep ++ switchTo s.env.cfg (modeFor d.a) :: s.st.seqList.drop s.st.seqStep } }

/-- The descriptor that Xfer issues for `d`: the switch where one is needed, else `d` (R120). -/
def issuedFor (s : State) (d : Descriptor) : Descriptor :=
  if needsSwitch s d then switchTo s.env.cfg (modeFor d.a) else d

/-- The sequencer's part of Xfer before Execute (R120): the insertion and the pre-issue effect. -/
def prepareXfer (d : Descriptor) (s : State) : State :=
  preIssue (issuedFor s d) (if needsSwitch s d then insertSwitch d s else s)

/-- Execute of a descriptor's frame (R119, R120). -/
def issue (d : Descriptor) (s : State) : State := execute (frameOf s.host.uart s.host.devAddr d) (respLen d) s

/-- `Xfer` for the descriptor `d` at `st.seq_step` (R120). -/
def xferOf (d : Descriptor) (s : State) : State := issue (issuedFor s d) (prepareXfer d s)

/-- The descriptor at `st.seq_step` (R41). -/
def currentDescriptor (s : State) : Option Descriptor := s.st.seqList[s.st.seqStep]?

/-- `Xfer` (R120): it is called only where there is a descriptor at `st.seq_step`. -/
def xfer (s : State) : State :=
  match currentDescriptor s with
  | some d => xferOf d s
  | none => s

/-- `start_seq(owner, list)` (R122). -/
def startSeq (owner : Owner) (list : List Descriptor) (s : State) : State :=
  xfer { s with st := { s.st with seqOwner := owner, seqList := list, seqStep := 0 } }

/-- The offset mode after a WRITE to 0x7F with this data and outcome (R121 a). -/
def offsetAfterWrite (c : Params) (v : Word) (o : TxOutcome) (old : OffsetMode) : OffsetMode :=
  match o with
  | .complete =>
    if v = c.opn.magicOffsetOn then .on else if v = c.opn.magicOffsetOff then .off else .unknown
  | .timedOut => .unknown
  | .cksumMismatch => .unknown
  | .completeNoCheck => old
  | .none => old

/-- The offset mode after the descriptor `d` ended with `o` in an SPI mode (R121). -/
def offsetAfter (c : Params) (d : Descriptor) (o : TxOutcome) (old : OffsetMode) : OffsetMode :=
  if d.op = .write ∧ cmd2Of d.a = 0x7F then offsetAfterWrite c d.v o old
  else if d.op = .bcast ∧ d.a = 0x7F then .unknown
  else old

/-- The effect of R121; in UART no descriptor changes the mode (R52). -/
def offsetPost (d : Descriptor) (o : TxOutcome) (s : State) : State :=
  { s with st := { s.st with
    offsetMode := if s.host.uart then s.st.offsetMode else offsetAfter s.env.cfg d o s.st.offsetMode } }

/-- `st.seq_step ← st.seq_step + 1` (R122). -/
def advance (s : State) : State := { s with st := { s.st with seqStep := s.st.seqStep + 1 } }

/-! ### Booking (R116, R117) -/

/-- The outcome is TIMEDOUT or CKSUM_MISMATCH. -/
def TxOutcome.failed (o : TxOutcome) : Bool := decide (o = .timedOut) || decide (o = .cksumMismatch)

/-- The failure counter after a transaction end with `o` (R117): only a host command's transactions move it. -/
def failCountAfter (owner : Owner) (o : TxOutcome) (n : Nat) : Nat :=
  if owner = .host then
    match o with
    | .timedOut => n + 1
    | .cksumMismatch => n + 1
    | .complete => 0
    | .completeNoCheck => n
    | .none => n
  else n

/-- This transaction end brings the failure count to P_FAIL_THRESHOLD (R117). -/
def tripsHealth (s : State) : Bool :=
  decide (s.st.seqOwner = .host) && s.st.outcome.failed
    && decide (failCountAfter s.st.seqOwner s.st.outcome s.st.failCount = Config.failThreshold)

/-- Booking of `st.outcome` (R116, R117). -/
def bookOutcome (s : State) : State :=
  { s with
    rpe := { s.rpe with
      cksumErrCnt := if s.st.outcome = .cksumMismatch then satSucc s.rpe.cksumErrCnt else s.rpe.cksumErrCnt
      timeoutCnt := if s.st.outcome = .timedOut then satSucc s.rpe.timeoutCnt else s.rpe.timeoutCnt }
    st := { s.st with failCount := failCountAfter s.st.seqOwner s.st.outcome s.st.failCount } }

/-! ### Recovery (R168–R170) -/

/-- Healthy → Resetting (R168): the unhealthy event, and the first recovery phase. -/
def enterRecovery (s : State) : State :=
  { s with
    rpe := { s.rpe with resetting := true, unhealthyEvt := true }
    st := { s.st with failCount := 0, recPhase := .preHigh, waitTicks := 0 } }

/-- The end of a recovery (R170): `cause` is 0 after a successful reload, else the error that ended it. -/
def endRecovery (ok : Bool) (cause : BitVec 4) (s : State) : State :=
  { s with
    rpe := { s.rpe with
      resetting := false
      recCause := cause
      recovered := s.rpe.recovered || ok
      recoveryFailed := s.rpe.recoveryFailed || !ok }
    st := { s.st with recPhase := .none, seqOwner := .none, seqList := [], seqStep := 0 } }

/-- RESULT[0..N−1] take the response words, RESULT[N..15] stay (R34, R126, R130). -/
def writeResults (n : Nat) (s : State) : State :=
  { s with rpe := { s.rpe with
    result := Vector.ofFn (fun i : Fin 16 =>
      if i.val < n then (s.st.respWords[i.val]?).getD s.rpe.result[i] else s.rpe.result[i]) } }

/-- LAST_CKSUM, written when a configuration sequence starts (R33). -/
def latchCksum (ck : Word) (s : State) : State := { s with rpe := { s.rpe with lastCksum := ck } }

end Sys2Proof.Machine
end

