-- ==== Sys2Proof/Machine/Csr.lean ====
section
/-! DEFINITION. The host's CSR window (R19–R39, R56–R59): the map from offsets to registers, reads without side effects,
write locks and plain writes. CMD's write is `60_exceptions.md`'s acceptance and stands in Machine/Agents.lean. -/

namespace Sys2Proof.Machine

/-- The calibration-factor registers (R19, R37). -/
inductive Factor
  | pg
  | urmg
  | i1rmg
  | i2rmg
  | ib
  | un
  | sRatio
  | freqConst
  | iSuppressTh
  deriving DecidableEq, Repr

/-- The registers of R19's table, and every other offset. -/
inductive Csr
  | devcfg
  | baud
  | calcfg
  | cmd
  | data
  | status
  | err
  | ie
  | cksumErrCnt
  | timeoutCnt
  | calOut
  | calFlags
  | lastCksum
  | result (i : Fin 16)
  | blkList (j : Fin 4)
  | cfgImage (i : Fin 30)
  | factor (f : Factor)
  /-- An offset R19 does not list (R20). -/
  | reserved
  deriving DecidableEq, Repr

/-- The register at the word offset `k` below 0x040 (R19). -/
def csrLow (k : Nat) : Csr :=
  match k with
  | 0 => .devcfg
  | 1 => .baud
  | 2 => .calcfg
  | 3 => .cmd
  | 4 => .data
  | 5 => .status
  | 6 => .err
  | 7 => .ie
  | 8 => .cksumErrCnt
  | 9 => .timeoutCnt
  | 10 => .calOut
  | 11 => .calFlags
  | 12 => .lastCksum
  | _ => .reserved

/-- The factor register at 0x180 + 4k (R19). -/
def csrFactor (k : Nat) : Csr :=
  match k with
  | 0 => .factor .pg
  | 1 => .factor .urmg
  | 2 => .factor .i1rmg
  | 3 => .factor .i2rmg
  | 4 => .factor .ib
  | 5 => .factor .un
  | 6 => .factor .sRatio
  | 7 => .factor .freqConst
  | 8 => .factor .iSuppressTh
  | _ => .reserved

/-- The register at byte offset 4k (R19, R20). -/
def csrAtWord (k : Nat) : Csr :=
  if k < 16 then csrLow k
  else if h : k - 16 < 16 then .result ⟨k - 16, h⟩
  else if h : k - 32 < 4 then .blkList ⟨k - 32, h⟩
  else if k < 64 then .reserved
  else if h : k - 64 < 30 then .cfgImage ⟨k - 64, h⟩
  else if k < 96 then .reserved
  else csrFactor (k - 96)

/-- The register at an aligned byte offset of the window. -/
def csrAt (off : BitVec 12) : Csr := csrAtWord (off.toNat / 4)

/-- The only legal access: 32 bits at a multiple of 4 (R57). -/
def accessOk (off : BitVec 12) (size : Nat) : Bool := decide (size = 4) && decide (off.toNat % 4 = 0)

/-- A factor register's value. -/
def factorRead (h : HostRegs) : Factor → Word
  | .pg => h.pg
  | .urmg => h.urmg
  | .i1rmg => h.i1rmg
  | .i2rmg => h.i2rmg
  | .ib => h.ib
  | .un => h.un
  | .sRatio => h.sRatio
  | .freqConst => h.freqConst
  | .iSuppressTh => h.iSuppressTh

/-- The word a host read returns (R19, R20, R25): CMD and reserved offsets read 0. -/
def csrRead (s : State) : Csr → Word
  | .devcfg => devcfgWord s.host
  | .baud => s.host.baud
  | .calcfg => calcfgWord s.host
  | .cmd => 0
  | .data => s.host.data
  | .status => statusWord s
  | .err => errWord s.rpe
  | .ie => ieWord s.host
  | .cksumErrCnt => s.rpe.cksumErrCnt
  | .timeoutCnt => s.rpe.timeoutCnt
  | .calOut => s.rpe.calOut
  | .calFlags => calFlagsWord s
  | .lastCksum => s.rpe.lastCksum
  | .result i => s.rpe.result[i]
  | .blkList j => s.host.blkList[j]
  | .cfgImage i => s.host.cfgImage[i]
  | .factor f => factorRead s.host f
  | .reserved => 0

/-- The write lock of a register (R38). -/
def csrLocked (s : State) : Csr → Bool
  | .devcfg => s.rpe.lock
  | .baud => s.rpe.lock
  | .calcfg => s.busy
  | .data => s.busy
  | .blkList _ => s.busy
  | .factor _ => s.busy
  | .cfgImage _ => s.busy || s.rpe.resetting
  | .cmd => false
  | .status => false
  | .err => false
  | .ie => false
  | .cksumErrCnt => false
  | .timeoutCnt => false
  | .calOut => false
  | .calFlags => false
  | .lastCksum => false
  | .result _ => false
  | .reserved => false

/-- A factor register written. -/
def factorWrite (h : HostRegs) (w : Word) : Factor → HostRegs
  | .pg => { h with pg := w }
  | .urmg => { h with urmg := w }
  | .i1rmg => { h with i1rmg := w }
  | .i2rmg => { h with i2rmg := w }
  | .ib => { h with ib := w }
  | .un => { h with un := w }
  | .sRatio => { h with sRatio := w }
  | .freqConst => { h with freqConst := w }
  | .iSuppressTh => { h with iSuppressTh := w }

/-- DEVCFG written (R21, R22). -/
def devcfgWrite (h : HostRegs) (w : Word) : HostRegs :=
  { h with devAddr := w.extractLsb' 0 2, wireMode := wireModeWritten h.wireMode (w.extractLsb' 2 2) }

/-- What a write that no lock stops stores (R59). Read-only registers and reserved offsets ignore it (R20, log 9). -/
def csrStore (w : Word) (s : State) : Csr → State
  | .devcfg => { s with host := devcfgWrite s.host w }
  | .baud => { s with host := { s.host with baud := w } }
  | .calcfg => { s with host := { s.host with calcfg := w.extractLsb' 0 5 } }
  | .cmd => s
  | .data => { s with host := { s.host with data := w } }
  | .status => { s with rpe := clearStatus w s.rpe }
  | .err => s
  | .ie => { s with host := { s.host with ie := w.extractLsb' 0 3 } }
  | .cksumErrCnt => { s with rpe := { s.rpe with cksumErrCnt := 0 } }
  | .timeoutCnt => { s with rpe := { s.rpe with timeoutCnt := 0 } }
  | .calOut => s
  | .calFlags => s
  | .lastCksum => s
  | .result _ => s
  | .blkList j => { s with host := { s.host with blkList := s.host.blkList.set j w } }
  | .cfgImage i => { s with host := { s.host with cfgImage := s.host.cfgImage.set i w } }
  | .factor f => { s with host := factorWrite s.host w f }
  | .reserved => s

/-- STATUS.WR_LOCKED ← 1 (R38). -/
def refuseWrite (s : State) : State := { s with rpe := { s.rpe with wrLocked := true } }

/-- A host write to a register other than CMD (R38, R59). -/
def csrWrite (r : Csr) (w : Word) (s : State) : State :=
  if csrLocked s r then refuseWrite s else csrStore w s r

/-- The bus interface's answer is recorded. -/
def respond (b : BusResponse) (s : State) : State := { s with env := { s.env with bus := b } }

/-- A host read (R39): the answer, and nothing else. A partial, wide or misaligned one gets the error response
with the data 0x00000000 (R57). -/
def hostRead (off : BitVec 12) (size : Nat) (s : State) : State :=
  if accessOk off size then respond (.data (csrRead s (csrAt off))) s else respond (.readError 0) s

end Sys2Proof.Machine
end

