-- ==== Sys2Proof/Machine/BusCommands.lean ====
section
/-! DEFINITION. The six bus commands (R126–R131): acceptance and the start of each one's sequence, and the completion
clauses that end it (R122). -/

namespace Sys2Proof.Machine

/-! ### What each command runs once accepted -/

/-- READ's sequence (R126). -/
def runRead (n : Nat) (a : Byte) (s : State) : State := startSeq .host (readList n a) s

/-- WRITE's sequence (R127). -/
def runWrite (a : Byte) (s : State) : State := startSeq .host (writeList a s.host.data) s

/-- BROADCAST's sequence (R128). -/
def runBroadcast (a : Byte) (s : State) : State := startSeq .host (bcastList a s.host.data) s

/-- CFG_BLOCK's sequence (R129): the handle is cleared first. -/
def runCfgBlock (s : State) : State := startSeq .host (cfgBlockList s.env.cfg s.host.uart s.host.blkList) (clearHandle s)

/-- BLOCK_READ's sequence (R130). -/
def runBlockRead (n : Nat) (s : State) : State := startSeq .host (blockList n) s

/-- LOAD_CONFIG's sequence (R131): LAST_CKSUM first. -/
def runLoadConfig (s : State) : State :=
  startSeq .host (lcList s.env.cfg s.host.uart s.host.cfgImage) (latchCksum (configCksum s.env.cfg s.host.cfgImage) s)

/-! ### The meanings -/

/-- READ (R126). -/
def execRead (n : Nat) (a : Byte) (s : State) : Host.Outcome State Fault Refusal :=
  .next (busCommand (cmdWord 1 (nm1Of n) a false) (readRangeOk s.host n a) (runRead n a) s)

/-- WRITE (R127). -/
def execWrite (a : Byte) (s : State) : Host.Outcome State Fault Refusal :=
  .next (busCommand (cmdWord 2 0 a false) (writeRangeOk s.host a) (runWrite a) s)

/-- BROADCAST (R128). -/
def execBroadcast (a : Byte) (s : State) : Host.Outcome State Fault Refusal :=
  .next (busCommand (cmdWord 3 0 a false) (bcastRangeOk a) (runBroadcast a) s)

/-- CFG_BLOCK (R129): R124 requires nothing of it. -/
def execCfgBlock (n : Nat) (s : State) : Host.Outcome State Fault Refusal :=
  .next (busCommand (cmdWord 4 (nm1Of n) 0 false) true runCfgBlock s)

/-- BLOCK_READ (R130). -/
def execBlockRead (n : Nat) (s : State) : Host.Outcome State Fault Refusal :=
  .next (busCommand (cmdWord 5 (nm1Of n) 0 false) (handleOk s.st n) (runBlockRead n) s)

/-- LOAD_CONFIG (R131): R124 requires nothing of it. -/
def execLoadConfig (s : State) : Host.Outcome State Fault Refusal :=
  .next (busCommand (cmdWord 6 0 0 false) true runLoadConfig s)

/-! ### Completion clauses -/

/-- success(HOST) of READ and BLOCK_READ (R126, R130). -/
def readSuccess (n : Nat) (s : State) : State := finish codeOk 0 0 (writeResults n s)

/-- success(HOST) of WRITE, BROADCAST and LOAD_CONFIG (R127, R128, R131). -/
def plainSuccess (s : State) : State := finish codeOk 0 0 s

/-- success(HOST) of CFG_BLOCK (R129). -/
def cfgBlockSuccess (n : Nat) (s : State) : State := finish codeOk 0 0 (setHandle n s)

/-- fail(HOST, o) of every command but LOAD_CONFIG (R126–R130). -/
def plainFail (o : TxOutcome) (s : State) : State := finish (errOf o) 0 s.st.seqStep s

/-- fail(HOST, o) of LOAD_CONFIG (R131). -/
def loadConfigFail (o : TxOutcome) (s : State) : State :=
  finish codeConfigurationIncomplete (errOf o) s.st.seqStep s

/-- success(HOST) of the running command (R122); `none` where `st.cmd` is no bus command. -/
def hostSuccess (s : State) : Option State :=
  match decodeCmd s.st.cmd with
  | .ok (.read n _) => some (readSuccess n s)
  | .ok (.write _) => some (plainSuccess s)
  | .ok (.broadcast _) => some (plainSuccess s)
  | .ok (.cfgBlock n) => some (cfgBlockSuccess n s)
  | .ok (.blockRead n) => some (readSuccess n s)
  | .ok .loadConfig => some (plainSuccess s)
  | .ok _ => none
  | .error _ => none

/-- fail(HOST, o) of the running command (R122); `none` where `st.cmd` is no bus command. -/
def hostFail (o : TxOutcome) (s : State) : Option State :=
  match decodeCmd s.st.cmd with
  | .ok (.read _ _) => some (plainFail o s)
  | .ok (.write _) => some (plainFail o s)
  | .ok (.broadcast _) => some (plainFail o s)
  | .ok (.cfgBlock _) => some (plainFail o s)
  | .ok (.blockRead _) => some (plainFail o s)
  | .ok .loadConfig => some (loadConfigFail o s)
  | .ok _ => none
  | .error _ => none

end Sys2Proof.Machine
end

