-- ==== Sys2Proof/Machine/Calibration.lean ====
section
/-! DEFINITION. CalibrationPipeline (R135–R160): BCD encoding, the CalRMS arithmetic on naturals, HEX2BCD and the ten
CALRMS kinds. -/

namespace Sys2Proof.Machine

/-! ### BCD (R135) -/

/-- Σ d_i · 16^i over the `k` low decimal digits of `r`. -/
def bcdDigits : Nat → Nat → Nat
  | 0, _ => 0
  | k + 1, r => r % 10 + 16 * bcdDigits k (r / 10)

/-- `BCD8(n)` (R135). -/
def bcd8 (n : Nat) : Word := BitVec.ofNat 32 (bcdDigits 8 (n % 10 ^ 8))

/-! ### The common computations -/

/-- The quotient of a ratio kind (R139, R146, R149): x · 10 · 2^F over the factor's register value. -/
def scaled (fracBits x factor : Nat) : Nat := div0 (x * 10 * 2 ^ fracBits) factor

/-- The frequency quotient (R148). -/
def frequency (h : HostRegs) (raw : Word) : Nat :=
  div0 (100 * h.freqConst.toNat * (if h.freqDiv then 64 else 16)) raw.toNat

/-- The sign OR'd into bit 23 of the result (R142). -/
def withSign (sign : Bool) (w : Word) : Word := if sign then w ||| 0x00800000 else w

/-- A pipeline command's writes of CAL_OUT and CAL_FLAGS[4:0], and its completion with OK (R137, R149, R150). -/
def calResult (out : Word) (flags : CalFlags) (s : State) : State :=
  finish codeOk 0 0 { s with rpe := { s.rpe with calOut := out, calFlags := flags } }

/-- `calrms_signed` without its writes of `st.creep_a` and `st.creep_b` (R149): `power` says that the kind takes the
creep test. -/
def calSigned (power : Bool) (factor : Nat) (s : State) : State :=
  let mag := magnitude s.host.data
  let q := scaled s.env.cfg.calFracBits mag factor
  let sign := signOf s.host s.host.data s.st.cmd
  calResult (withSign sign (bcd8 q))
    { sign := sign
      creep := power && creepOf s.env.cfg.calFracBits s.host mag factor
      ovf := overflows q
      suppressed := false
      divZero := decide (factor = 0) } s

/-- `calrms_unsigned` (R150): `creep` is the paired power command's flag, false for U. -/
def calUnsigned (creep : Bool) (factor : Nat) (s : State) : State :=
  let q := scaled s.env.cfg.calFracBits s.host.data.toNat factor
  let supp := suppressOf s.host creep q
  calResult (if supp then 0 else bcd8 q)
    { sign := false
      creep := false
      ovf := overflows q
      suppressed := supp
      divZero := decide (factor = 0) } s

/-- `st.creep_a` takes the creep flag just computed (R145). -/
def keepCreepA (s : State) : State := { s with st := { s.st with creepA := s.rpe.calFlags.creep } }

/-- `st.creep_b` takes the creep flag just computed (R145). -/
def keepCreepB (s : State) : State := { s with st := { s.st with creepB := s.rpe.calFlags.creep } }

/-- HEX2BCD's computation (R137). -/
def runHex2bcd (s : State) : State :=
  calResult (bcd8 s.host.data.toNat)
    { sign := false, creep := false, ovf := overflows s.host.data.toNat, suppressed := false, divZero := false } s

/-- HZ's computation (R148, R160). -/
def runHz (s : State) : State :=
  calResult (bcd8 (frequency s.host s.host.data))
    { sign := false
      creep := false
      ovf := overflows (frequency s.host s.host.data)
      suppressed := false
      divZero := decide (s.host.data = 0) } s

/-! ### The meanings -/

/-- HEX2BCD (R137). -/
def execHex2bcd (s : State) : Host.Outcome State Fault Refusal :=
  .next (pipelineCommand (cmdWord 7 0 0 false) runHex2bcd s)

/-- CALRMS P (R151). -/
def execCalrmsP (dir : Bool) (s : State) : Host.Outcome State Fault Refusal :=
  .next (pipelineCommand (cmdWord 8 0 0 dir) (fun t => keepCreepA (calSigned true t.host.pg.toNat t)) s)

/-- CALRMS Q (R152). -/
def execCalrmsQ (dir : Bool) (s : State) : Host.Outcome State Fault Refusal :=
  .next (pipelineCommand (cmdWord 8 0 1 dir) (fun t => calSigned true t.host.pg.toNat t) s)

/-- CALRMS PB (R153). -/
def execCalrmsPb (dir : Bool) (s : State) : Host.Outcome State Fault Refusal :=
  .next (pipelineCommand (cmdWord 8 0 2 dir) (fun t => keepCreepB (calSigned true t.host.pgB t)) s)

/-- CALRMS QB (R154). -/
def execCalrmsQb (dir : Bool) (s : State) : Host.Outcome State Fault Refusal :=
  .next (pipelineCommand (cmdWord 8 0 3 dir) (fun t => calSigned true t.host.pgB t) s)

/-- CALRMS SA (R155). -/
def execCalrmsSa (dir : Bool) (s : State) : Host.Outcome State Fault Refusal :=
  .next (pipelineCommand (cmdWord 8 0 4 dir) (fun t => calSigned false t.host.sRatio.toNat t) s)

/-- CALRMS SB (R156). -/
def execCalrmsSb (dir : Bool) (s : State) : Host.Outcome State Fault Refusal :=
  .next (pipelineCommand (cmdWord 8 0 5 dir) (fun t => calSigned false t.host.sRatio.toNat t) s)

/-- CALRMS U (R157). -/
def execCalrmsU (dir : Bool) (s : State) : Host.Outcome State Fault Refusal :=
  .next (pipelineCommand (cmdWord 8 0 6 dir) (fun t => calUnsigned false t.host.urmg.toNat t) s)

/-- CALRMS I1 (R158). -/
def execCalrmsI1 (dir : Bool) (s : State) : Host.Outcome State Fault Refusal :=
  .next (pipelineCommand (cmdWord 8 0 7 dir) (fun t => calUnsigned t.st.creepA t.host.i1rmg.toNat t) s)

/-- CALRMS I2 (R159). -/
def execCalrmsI2 (dir : Bool) (s : State) : Host.Outcome State Fault Refusal :=
  .next (pipelineCommand (cmdWord 8 0 8 dir) (fun t => calUnsigned t.st.creepB t.host.i2rmg.toNat t) s)

/-- CALRMS HZ (R160). -/
def execCalrmsHz (dir : Bool) (s : State) : Host.Outcome State Fault Refusal :=
  .next (pipelineCommand (cmdWord 8 0 9 dir) runHz s)

end Sys2Proof.Machine
end

