-- ==== Sys2Proof/Machine/WireOps.lean ====
section
/-! DEFINITION. The four wire operations: each builds its request frame (R91–R94) and hands it to Execute with its
expected response length (R79, R101). DEV is the instruction's own field; the sequencer always passes DEV_ADDR. -/

namespace Sys2Proof.Machine

/-- WIRE_WRITE (R91): an 8- or 7-byte request, a 1-byte response. -/
def execWireWrite (dev : BitVec 2) (addr : Byte) (data : Word) (s : State) : Host.Outcome State Fault Refusal :=
  .next (execute (encodeWrite s.host.uart dev addr data) 1 s)

/-- WIRE_BROADCAST (R92): an 8- or 7-byte request, no response. -/
def execWireBroadcast (dev : BitVec 2) (addr : Byte) (data : Word) (s : State) : Host.Outcome State Fault Refusal :=
  .next (execute (encodeBroadcast s.host.uart dev addr data) 0 s)

/-- WIRE_READ (R93): a 4- or 3-byte request, a response of 4N + 1 bytes. -/
def execWireRead (n : Nat) (dev : BitVec 2) (addr : Byte) (s : State) : Host.Outcome State Fault Refusal :=
  .next (execute (encodeRead s.host.uart dev addr n) (readRespLen n) s)

/-- WIRE_BLOCK (R94): a 4- or 3-byte request, a response of 4N + 1 bytes. -/
def execWireBlock (n : Nat) (dev : BitVec 2) (s : State) : Host.Outcome State Fault Refusal :=
  .next (execute (encodeBlockRead s.host.uart dev n) (readRespLen n) s)

end Sys2Proof.Machine
end

