-- ==== Sys2Proof/Machine/Dispatch.lean ====
section
/-! DEFINITION. The dispatch: one arm per instruction. -/

namespace Sys2Proof.Machine

/-- The meaning of an instruction: a wire operation handed to Execute, or a command word written to CMD. -/
def exec (i : Instr) (s : State) : Host.Outcome State Fault Refusal :=
  match i with
  | .wireWrite dev addr data => Sys2Proof.Machine.execWireWrite dev addr data s
  | .wireBroadcast dev addr data => Sys2Proof.Machine.execWireBroadcast dev addr data s
  | .wireRead n dev addr => Sys2Proof.Machine.execWireRead n dev addr s
  | .wireBlock n dev => Sys2Proof.Machine.execWireBlock n dev s
  | .read n a => Sys2Proof.Machine.execRead n a s
  | .write a => Sys2Proof.Machine.execWrite a s
  | .broadcast a => Sys2Proof.Machine.execBroadcast a s
  | .cfgBlock n => Sys2Proof.Machine.execCfgBlock n s
  | .blockRead n => Sys2Proof.Machine.execBlockRead n s
  | .loadConfig => Sys2Proof.Machine.execLoadConfig s
  | .hex2bcd => Sys2Proof.Machine.execHex2bcd s
  | .calrmsP dir => Sys2Proof.Machine.execCalrmsP dir s
  | .calrmsQ dir => Sys2Proof.Machine.execCalrmsQ dir s
  | .calrmsPb dir => Sys2Proof.Machine.execCalrmsPb dir s
  | .calrmsQb dir => Sys2Proof.Machine.execCalrmsQb dir s
  | .calrmsSa dir => Sys2Proof.Machine.execCalrmsSa dir s
  | .calrmsSb dir => Sys2Proof.Machine.execCalrmsSb dir s
  | .calrmsU dir => Sys2Proof.Machine.execCalrmsU dir s
  | .calrmsI1 dir => Sys2Proof.Machine.execCalrmsI1 dir s
  | .calrmsI2 dir => Sys2Proof.Machine.execCalrmsI2 dir s
  | .calrmsHz dir => Sys2Proof.Machine.execCalrmsHz dir s

end Sys2Proof.Machine
end

