-- ==== Sys2Proof/Machine/Engine.lean ====
section
/-! DEFINITION. The agents below the host: the transaction engine's steps and timing (R100–R118), the recovery
sequencer's steps (R169), the microsecond tick (R108), and the two channel agents (R109, R111). -/

namespace Sys2Proof.Machine

/-! ### Timing quantities -/

/-- `turnaround_us` (R103). -/
def turnaroundUs (c : Params) (baud : Word) : Nat := ceilDiv (c.opn.turnaroundBits * 1000000) baud.toNat

/-- `guard_us` (R104). -/
def guardUs (c : Params) (h : HostRegs) : Nat :=
  match h.wireMode with
  | .uart => turnaroundUs c h.baud
  | .spi4 => max (turnaroundUs c h.baud) c.spi4IdleUs
  | .spi3 => max (turnaroundUs c h.baud) c.spi3PreopUs

/-- BPB (R105). -/
def bitsPerByte (c : Params) (h : HostRegs) : Nat := if h.uart then c.bpbUart else c.bpbSpi

/-- `T_us(n)` (R105). -/
def timeoutUs (c : Params) (h : HostRegs) (n : Nat) : Nat :=
  ceilDiv (bitsPerByte c h * n * Config.marginMicros) h.baud.toNat

/-- A wait of `us` microseconds is over on this counter (R15). -/
def elapsed (count : Word) (us : Nat) : Bool := decide (ticks us ≤ count.toNat)

/-! ### Transaction end (R115) -/

/-- Step (1) of a transaction end. -/
def toIdle (s : State) : State :=
  { s with st := { s.st with engState := .idle, gapTicks := 0, rxFifo := [], txIdx := 0 } }

/-- An outcome as a step: the fault of log 6 where the sequencer has no clause to run. -/
def orStray : Option State → Host.Outcome State Fault Refusal
  | some s => .next s
  | none => .fault .strayTransaction

/-- `success(owner)` (R122, R170). -/
def sequenceSuccess (s : State) : Option State :=
  match s.st.seqOwner with
  | .host => hostSuccess s
  | .recovery => some (endRecovery true 0 s)
  | .none => none

/-- `fail(owner, o)` (R122, R170). -/
def sequenceFail (o : TxOutcome) (s : State) : Option State :=
  match s.st.seqOwner with
  | .host => hostFail o s
  | .recovery => some (endRecovery false (errOf o) s)
  | .none => none

/-- The sequencer goes on: the next descriptor, or the end of the sequence with success (R122). -/
def continueSequence (s : State) : Option State :=
  if s.st.seqStep < s.st.seqList.length then some (xfer s) else sequenceSuccess s

/-- Step (3) of a transaction end: `on_tx_end` (R122). -/
def sequencerReacts (s : State) : Option State :=
  match currentDescriptor s with
  | none => none
  | some d =>
    match s.st.outcome with
    | .complete => continueSequence (advance (offsetPost d .complete s))
    | .completeNoCheck => continueSequence (advance (offsetPost d .completeNoCheck s))
    | .timedOut => sequenceFail .timedOut (offsetPost d .timedOut s)
    | .cksumMismatch => sequenceFail .cksumMismatch (offsetPost d .cksumMismatch s)
    | .none => none

/-- Step (4) of a transaction end: the health check (R168). -/
def healthCheck (tripped : Bool) (s : State) : State := if tripped then enterRecovery s else s

/-- A transaction end, one atomic step (R115): idle, booking, the sequencer, the health check. -/
def txEnd (s : State) : Host.Outcome State Fault Refusal :=
  orStray ((sequencerReacts (bookOutcome (toIdle s))).map (healthCheck (tripsHealth s)))

/-- The outcome is fixed (R115): SPI 4-wire goes through HOLD, the other modes end at once. -/
def conclude (o : TxOutcome) (s : State) : Host.Outcome State Fault Refusal :=
  if s.host.wireMode = .spi4 then
    .next { s with st := { s.st with outcome := o, engState := .hold, waitTicks := 0 } }
  else txEnd { s with st := { s.st with outcome := o } }

/-! ### The engine's states (R100) -/

/-- One step in GUARD (R104). -/
def stepGuard (s : State) : State :=
  if elapsed s.st.gapTicks (guardUs s.env.cfg s.host) then
    if s.host.wireMode = .spi4 then { s with st := { s.st with engState := .setup, waitTicks := 0 } }
    else { s with st := { s.st with engState := .sending } }
  else s

/-- One step in SETUP (R107). -/
def stepSetup (s : State) : State :=
  if elapsed s.st.waitTicks s.env.cfg.csSetupUs then { s with st := { s.st with engState := .sending } } else s

/-- One step in SENDING (R109, R110): the engine leaves only once every byte is handed over and `tx_done` is 1. -/
def stepSending (txDone : Bool) (s : State) : Host.Outcome State Fault Refusal :=
  if s.st.txIdx = s.st.txFrame.length ∧ txDone = true then
    if 0 < s.st.expN then
      .next { s with st := { s.st with engState := .awaiting, rxFifo := [], waitTicks := 0 } }
    else conclude .completeNoCheck s
  else .next s

/-- The response is complete: it is validated (R114). -/
def takeResponse (s : State) : Host.Outcome State Fault Refusal :=
  match validate s.host.uart s.st.txFrame (s.st.rxFifo.take s.st.expN) with
  | .ok words => conclude .complete { s with st := { s.st with respWords := words } }
  | .mismatch => conclude .cksumMismatch s
  | .noDecoder => .fault .strayTransaction

/-- One step in AWAITING (R112): the length is looked at before the timeout (R113). -/
def stepAwaiting (s : State) : Host.Outcome State Fault Refusal :=
  if s.st.expN ≤ s.st.rxFifo.length then takeResponse s
  else if elapsed s.st.waitTicks (timeoutUs s.env.cfg s.host s.st.expN) then conclude .timedOut s
  else .next s

/-- One step in HOLD (R107). -/
def stepHold (s : State) : Host.Outcome State Fault Refusal :=
  if elapsed s.st.waitTicks s.env.cfg.csHoldUs then txEnd s else .next s

/-! ### The recovery sequencer (R169) -/

/-- What REINIT clears, and the phase after it (R169). -/
def reinitialise (s : State) : State :=
  { s with st := { s.st with
    offsetMode := .unknown, blkValid := false, blkCount := 0, gapTicks := 0, rxFifo := [], recPhase := .reload } }

/-- REINIT's actions, and the start of the reload (R169). -/
def startReload (s : State) : State :=
  startSeq .recovery (lcList s.env.cfg s.host.uart s.host.cfgImage)
    (latchCksum (configCksum s.env.cfg s.host.cfgImage) (reinitialise s))

/-- One step of the recovery sequencer, the engine being IDLE. -/
def stepRecovery (s : State) : State :=
  match s.st.recPhase with
  | .none => s
  | .preHigh =>
    if elapsed s.st.waitTicks s.env.cfg.resetPreHighUs then
      { s with st := { s.st with lineLow := true, waitTicks := 0, recPhase := .low } }
    else s
  | .low =>
    if elapsed s.st.waitTicks s.env.cfg.resetLowUs then
      { s with st := { s.st with lineLow := false, waitTicks := 0, recPhase := .postWait } }
    else s
  | .postWait =>
    if elapsed s.st.waitTicks s.env.cfg.resetWaitUs then { s with st := { s.st with recPhase := .reinit } } else s
  | .reinit => startReload s
  | .reload => s

/-! ### The tick and the channel agents -/

/-- `st.gap_ticks` counts (R108 a). -/
def gapCounts (st : Hidden) : Bool := decide (st.engState = .idle) || decide (st.engState = .guard)

/-- `st.wait_ticks` counts (R108 b). -/
def waitCounts (st : Hidden) : Bool :=
  decide (st.engState = .setup) || decide (st.engState = .awaiting) || decide (st.engState = .hold)
    || decide (st.recPhase = .preHigh) || decide (st.recPhase = .low) || decide (st.recPhase = .postWait)

/-- One microsecond tick (R108). -/
def tickStep (s : State) : State :=
  { s with st := { s.st with
    gapTicks := if gapCounts s.st then satSucc s.st.gapTicks else s.st.gapTicks
    waitTicks := if waitCounts s.st then satSucc s.st.waitTicks else s.st.waitTicks } }

/-- The byte on offer: `tx_valid` and `tx_byte` (R109). -/
def offeredByte (st : Hidden) : Option Byte :=
  if st.engState = .sending then st.txFrame[st.txIdx]? else none

/-- A step with `tx_ready` = 1 (R109): the channel takes the byte on offer. -/
def channelTxStep (s : State) : State :=
  match offeredByte s.st with
  | some b =>
    { s with st := { s.st with txIdx := s.st.txIdx + 1 }, env := { s.env with sent := s.env.sent ++ [b] } }
  | none => s

/-- A received byte (R111 a): appended, or dropped with RX_OVERFLOW where the FIFO is full. -/
def channelRxStep (b : Byte) (s : State) : State :=
  if s.st.rxFifo.length < Config.rxDepth then { s with st := { s.st with rxFifo := s.st.rxFifo ++ [b] } }
  else { s with rpe := { s.rpe with rxOverflow := true } }

end Sys2Proof.Machine
end

