-- ==== Sys2Proof/Machine/Ports.lean ====
section
/-! DEFINITION. The output ports of R174, each a function of the state. -/

namespace Sys2Proof.Machine

/-- The outputs of R174's table. -/
structure Ports where
  txValid : Bool
  txByte : Byte
  rxExpect : BitVec 7
  csActive : Bool
  lineForceLow : Bool
  chReinit : Bool
  wireMode : BitVec 2
  baud : Word
  irq : Bool
  unhealthy : Bool
  deriving DecidableEq, Repr

/-- `rx_expect` (R112): the bytes to receive now, on seven bits; the longest response has 65. -/
def rxExpect (st : Hidden) : BitVec 7 := if st.engState = .awaiting then BitVec.ofNat 7 st.expN else 0

/-- `cs_active` (R107). -/
def csActive (s : State) : Bool :=
  match s.host.wireMode with
  | .uart => false
  | .spi3 => true
  | .spi4 =>
    decide (s.st.engState = .setup) || decide (s.st.engState = .sending)
      || decide (s.st.engState = .awaiting) || decide (s.st.engState = .hold)

/-- Every output of the RPE. `tx_byte` has no value while `tx_valid` = 0; it is shown as 0 there. -/
def ports (s : State) : Ports where
  txValid := (offeredByte s.st).isSome
  txByte := (offeredByte s.st).getD 0
  rxExpect := rxExpect s.st
  csActive := csActive s
  lineForceLow := s.st.lineLow
  chReinit := decide (s.st.recPhase = .reinit)
  wireMode := wireModeCode s.host.wireMode
  baud := s.host.baud
  irq := irq s
  unhealthy := s.rpe.resetting

end Sys2Proof.Machine
end

