-- ==== Sys2Proof/Machine/Agents.lean ====
section
/-! DEFINITION. One step of each agent (R9), which agent comes next, and where an instruction is fetched: a command word
is the host's write to CMD, a wire operation is the descriptor at `st.seq_step`. -/

namespace Sys2Proof.Machine

/-! ### The host -/

/-- A CMD write (R163, R164): a well-formed word is its command, any other word is BadCommand (R84). -/
def commandWrite (w : Word) (s : State) : Host.Outcome State Fault Refusal :=
  match decodeCmd w with
  | .ok i => exec i s
  | .error _ => .next (badCommand w s)

/-- An aligned 32-bit host write to the register `r`. -/
def hostWriteTo (r : Csr) (w : Word) (s : State) : Host.Outcome State Fault Refusal :=
  if r = .cmd then commandWrite w s else .next (csrWrite r w s)

/-- A host write; a partial, wide or misaligned one gets the error response and changes no state (R57). -/
def hostWrite (off : BitVec 12) (size : Nat) (w : Word) (s : State) : Host.Outcome State Fault Refusal :=
  if accessOk off size then hostWriteTo (csrAt off) w (respond .ack s) else .next (respond .writeError s)

/-! ### The engine -/

/-- The wire instruction that Xfer executes for `d`: the switch where R120 puts one ahead of `d`. -/
def fetchedWire (s : State) (d : Descriptor) : Instr := wireInstrOf s.host.devAddr (issuedFor s d)

/-- One step in IDLE: a descriptor that still waits at `st.seq_step` is issued (R100's first row, log 7); else the
recovery sequencer steps. -/
def stepIdle (s : State) : Host.Outcome State Fault Refusal :=
  match currentDescriptor s with
  | some d => exec (fetchedWire s d) (prepareXfer d s)
  | none => .next (stepRecovery s)

/-- One internal step of the Engine agent (R9, R100). -/
def engineStep (txDone : Bool) (s : State) : Host.Outcome State Fault Refusal :=
  match s.st.engState with
  | .idle => stepIdle s
  | .guard => .next (stepGuard s)
  | .setup => .next (stepSetup s)
  | .sending => stepSending txDone s
  | .awaiting => stepAwaiting s
  | .hold => stepHold s

/-! ### Block reset (R182) -/

/-- Every CSR and all hidden state at the reset value (R44); the environment's record stays. -/
def holdReset (level : Bool) (s : State) : State :=
  { host := HostRegs.reset, rpe := RpeRegs.reset, st := Hidden.reset, env := { s.env with rst := level } }

/-- A step while `rst` = 1 (R182): nothing has an effect, a host write is ignored, a host read returns the reset value. -/
def stepInReset (e : Event) (s : State) : State :=
  match e with
  | .hostRead off size => hostRead off size (holdReset true s)
  | .hostWrite off size _ => respond (if accessOk off size then .ack else .writeError) (holdReset true s)
  | .engine _ => holdReset true s
  | .channelTx => holdReset true s
  | .channelRx _ => holdReset true s
  | .tick => holdReset true s
  | .rst level => holdReset level s

/-! ### One step -/

/-- A step while `rst` = 0. -/
def stepRunning (e : Event) (s : State) : Host.Outcome State Fault Refusal :=
  match e with
  | .hostRead off size => .next (hostRead off size s)
  | .hostWrite off size w => hostWrite off size w s
  | .engine txDone => engineStep txDone s
  | .channelTx => .next (channelTxStep s)
  | .channelRx b => .next (channelRxStep b s)
  | .tick => .next (tickStep s)
  | .rst true => .next (holdReset true s)
  | .rst false => .next s

/-- The agent step `e` (R9): "each agent step is atomic" (R173). -/
def agentStep (e : Event) (s : State) : Host.Outcome State Fault Refusal :=
  if s.env.rst then .next (stepInReset e s) else stepRunning e s

/-- The agent step that comes next: the first listed one, else a free draw (R9, log 1). -/
def nextEvent (s : State) : Event :=
  match s.env.script with
  | [] => Config.environment s.env.draws
  | e :: _ => e

/-- The state once that agent step is taken off the list, or drawn. -/
def consumeEvent (s : State) : State :=
  match s.env.script with
  | [] => { s with env := { s.env with draws := s.env.draws + 1 } }
  | _ :: rest => { s with env := { s.env with script := rest } }

/-! ### Placing an instruction where the next step fetches it (log 8) -/

/-- `e` comes next, and `rst` is 0. -/
def withEvent (e : Event) (s : State) : State :=
  { s with env := { s.env with rst := false, script := e :: s.env.script } }

/-- The host's next access is the write of `w` to CMD. -/
def placeCommand (w : Word) (s : State) : State := withEvent (.hostWrite 0x00C 4 w) s

/-- The descriptor `d` waits at `st.seq_step` for the engine's next step: the host command `cmd` owns it, the engine is
IDLE, DEV_ADDR is the frame's, and the offset mode already is the one its address wants, so that no switch comes first. -/
def placeDescriptor (dev : BitVec 2) (cmd : Word) (d : Descriptor) (s : State) : State :=
  withEvent (.engine false)
    { s with
      host := { s.host with devAddr := dev }
      st := { s.st with
        cmd := cmd, seqList := [d], seqStep := 0, seqOwner := .host, engState := .idle
        offsetMode := if s.host.uart then s.st.offsetMode else modeFor d.a } }

/-- A wire instruction as a waiting descriptor of the host command that sends its frame; any other instruction leaves
the state as it is. -/
def placeWire (i : Instr) (s : State) : State :=
  match i with
  | .wireWrite dev addr data => placeDescriptor dev (cmdWord 2 0 addr false) ⟨.write, addr, data, .cmd⟩ s
  | .wireBroadcast dev addr data => placeDescriptor dev (cmdWord 3 0 addr false) ⟨.bcast, addr, data, .cmd⟩ s
  | .wireRead n dev addr =>
    placeDescriptor dev (cmdWord 1 (nm1Of n) addr false) ⟨.read, addr, BitVec.ofNat 32 n, .cmd⟩ s
  | .wireBlock n dev => placeDescriptor dev (cmdWord 5 (nm1Of n) 0 false) ⟨.block, 0, BitVec.ofNat 32 n, .cmd⟩ s
  | _ => s

/-- The instruction of `w` placed where the next step fetches it. -/
def placeFetch (nbits w : Nat) (s : State) : State :=
  if nbits = 32 then placeCommand (BitVec.ofNat 32 w) s
  else
    match decodeTableWord nbits w with
    | some i => placeWire i s
    | none => s

end Sys2Proof.Machine
end

