-- ==== Sys2Proof/Machine/Step.lean ====
section
/-! DEFINITION. One step of the machine: one atomic step of one agent (R9, R173). -/

namespace Sys2Proof.Machine

/-- One step: the next agent step, taken. -/
def step (s : State) : Host.Outcome State Fault Refusal := agentStep (nextEvent s) (consumeEvent s)

/-- The state with the instruction of `w` placed where `step` fetches its next instruction (log 8). -/
def State.withFetchWord (s : State) (nbits w : Nat) : State := placeFetch nbits w s

end Sys2Proof.Machine
end

