-- ==== Sys2Proof/Safety.lean ====
section
/-! DEFINITION. What counts as a safe run: the step goes on, and the state stays coherent in the ways the spec's rules say
it always is. -/

namespace Sys2Proof.Machine

/-- The step answers a next state: no fault and no refusal. -/
def Runs (o : Host.Outcome State Fault Refusal) : Prop := ∃ t, o = .next t

/-- The words of a descriptor that reads: 1 to 16 (R75, R124). -/
def descriptorOk (d : Descriptor) : Bool :=
  match d.op with
  | .write => true
  | .bcast => true
  | .read => countOk d.v.toNat
  | .block => countOk d.v.toNat

/-- The command word is a bus command (R164): the completion clauses of R122 have something to run. -/
def isBusWord (w : Word) : Bool :=
  match decodeCmd w with
  | .ok (.read _ _) => true
  | .ok (.write _) => true
  | .ok (.broadcast _) => true
  | .ok (.cfgBlock _) => true
  | .ok (.blockRead _) => true
  | .ok .loadConfig => true
  | .ok _ => false
  | .error _ => false

/-- The switches that a sequence may still insert ahead of these descriptors, if every transaction completes (R120,
R121). -/
def switchesAhead (c : Params) (uart : Bool) : OffsetMode → List Descriptor → Nat
  | _, [] => 0
  | m, d :: ds =>
    if uart then 0
    else if d.op ≠ .block ∧ cmd2Of d.a ≠ 0x7F ∧ m ≠ modeFor d.a then
      1 + switchesAhead c uart (offsetAfter c d .complete (modeFor d.a)) ds
    else switchesAhead c uart (offsetAfter c d .complete m) ds

/-- The running sequence, with the switches it may still insert, has at most 48 descriptors (R18, R40). -/
def sequenceBounded (s : State) : Prop :=
  s.st.seqList.length
    + switchesAhead s.env.cfg s.host.uart s.st.offsetMode (s.st.seqList.drop s.st.seqStep) ≤ 48

/-- The transaction in progress is the descriptor at `st.seq_step`: its frame is loaded, with its response length
(R101, R119, R120). -/
def transactionCoherent (s : State) : Prop :=
  ∃ d, currentDescriptor s = some d
    ∧ s.st.txFrame = frameOf s.host.uart s.host.devAddr d
    ∧ s.st.expN = respLen d

/-- What holds of every state that a run reaches. -/
structure Inv (s : State) : Prop where
  /-- In UART no transaction has an address beyond seven bits (R7, R124). -/
  uartAddrs : s.host.wireMode = .uart → ∀ d ∈ s.st.seqList, d.a.toNat ≤ 0x7F
  /-- "FAIL_COUNT reads 0–2" (R117). -/
  failCount : s.st.failCount ≤ 2
  /-- BLK_COUNT is "0 when BLK_VALID = 0, else 1–16" (R27). -/
  handle : if s.st.blkValid then 1 ≤ s.st.blkCount ∧ s.st.blkCount ≤ 16 else s.st.blkCount = 0
  /-- The receive FIFO holds at most 65 bytes (R111). -/
  fifo : s.st.rxFifo.length ≤ 65
  /-- A sequence has an owner exactly while a transaction is under way (R62, R122). -/
  owned : s.st.seqOwner = .none ↔ s.st.engState = .idle
  /-- No owner, no sequence (R44, R167, R170). -/
  unowned : s.st.seqOwner = .none → s.st.seqList = [] ∧ s.st.seqStep = 0
  /-- The transaction in progress is the descriptor at `st.seq_step`. -/
  coherent : s.st.seqOwner ≠ .none → transactionCoherent s
  /-- Every reading descriptor has 1 to 16 words. -/
  counts : ∀ d ∈ s.st.seqList, descriptorOk d = true
  /-- "A recovery sequence and a host bus command never run together" (R62). -/
  hostRuns : s.st.seqOwner = .host → isBusWord s.st.cmd = true ∧ s.st.recPhase = .none
  /-- RECOVERY owns the sequence exactly in RELOAD (R169). -/
  recoveryRuns : s.st.seqOwner = .recovery ↔ s.st.recPhase = .reload
  /-- HEALTH is Resetting exactly while a recovery phase is under way (R168, R170). -/
  health : s.rpe.resetting = true ↔ s.st.recPhase ≠ .none
  /-- The reset line is low exactly in phase LOW (R169). -/
  line : s.st.lineLow = true ↔ s.st.recPhase = .low
  /-- DEVCFG and BAUD are locked whenever a sequence or a recovery runs (R38, R164). -/
  locked : s.st.seqOwner ≠ .none ∨ s.st.recPhase ≠ .none → s.rpe.lock = true
  /-- "BAUD ≠ 0 whenever a transaction runs": it locks non-zero (R165). -/
  baud : s.rpe.lock = true → s.host.baud ≠ 0
  /-- Before the first bus command the offset mode is UNKNOWN, and in UART always (R52). -/
  offset : s.rpe.lock = false ∨ s.host.wireMode = .uart → s.st.offsetMode = .unknown
  /-- No more bytes are handed over than the frame has (R109). -/
  txIdx : s.st.engState ≠ .idle → s.st.txIdx ≤ s.st.txFrame.length
  /-- SETUP and HOLD are SPI 4-wire states (R107). -/
  chipSelect : s.st.engState = .setup ∨ s.st.engState = .hold → s.host.wireMode = .spi4
  /-- AWAITING expects at least one byte (R112). -/
  awaits : s.st.engState = .awaiting → 0 < s.st.expN
  /-- The outcome is fixed before HOLD (R115), and only a broadcast, which expects nothing, ends unchecked. -/
  held : s.st.engState = .hold → s.st.outcome ≠ .none ∧ (s.st.outcome = .completeNoCheck ↔ s.st.expN = 0)
  /-- While `rst` = 1 everything is at its reset value (R182). -/
  inReset : s.env.rst = true → s.host = HostRegs.reset ∧ s.rpe = RpeRegs.reset ∧ s.st = Hidden.reset

end Sys2Proof.Machine
end

