-- ==== Sys2Proof/Certificates/Slice0/Obligations.lean ====
section
/-! DEFINITION. The statements for the provers. The definitions of Sys2Proof.Spec say in the spec's own arithmetic what
a statement claims; they stand here, apart from the machine's own, so that a statement compares the two. -/

namespace Sys2Proof.Spec

open Sys2Proof.Machine

/-! ### Frames (R70–R79, R87–R97) -/

/-- Σ of a byte list as a natural. -/
def total (l : List Byte) : Nat := (l.map BitVec.toNat).sum

/-- The closed form of the frame checksum (R88). -/
def ck (l : List Byte) : Byte := BitVec.ofInt 8 (0x32 - (total l : Int))

/-- The bytes of a word, least significant first (R13). -/
def le (v : Word) : List Byte :=
  [v.setWidth 8, (v >>> 8).setWidth 8, (v >>> 16).setWidth 8, (v >>> 24).setWidth 8]

/-- CMD1 of a count, a device address and an opcode, as the sum of its shifted fields (R73). -/
def cmd1Byte (n : Nat) (dev : BitVec 2) (op : Nat) : Byte := BitVec.ofNat 8 (16 * (n - 1) + 4 * dev.toNat + op)

/-- `addr & 0x7F` (R76). -/
def low7 (a : Byte) : Byte := BitVec.ofNat 8 (a.toNat % 128)

/-- HDR, a body and its checksum (R90). -/
def closed (uart : Bool) (body : List Byte) : List Byte := (if uart then [0x7D] else []) ++ body ++ [ck body]

/-- The Write request (R91). -/
def writeFrame (uart : Bool) (dev : BitVec 2) (a : Byte) (v : Word) : List Byte :=
  closed uart ([cmd1Byte 1 dev 2, low7 a] ++ le v)

/-- The Broadcast request (R92). -/
def bcastFrame (uart : Bool) (dev : BitVec 2) (a : Byte) (v : Word) : List Byte :=
  closed uart ([cmd1Byte 1 dev 0, low7 a] ++ le v)

/-- The Read request (R93). -/
def readFrame (uart : Bool) (dev : BitVec 2) (a : Byte) (n : Nat) : List Byte :=
  closed uart [cmd1Byte n dev 1, low7 a]

/-- The Block request (R94). -/
def blockFrame (uart : Bool) (dev : BitVec 2) (n : Nat) : List Byte := closed uart [cmd1Byte n dev 3, 0x00]

/-- Word `i` of a response: its four bytes, least significant first (R77). -/
def wordAt (resp : List Byte) (i : Nat) : Word :=
  BitVec.ofNat 32 ((resp.getD (4 * i) 0).toNat + 256 * (resp.getD (4 * i + 1) 0).toNat
    + 65536 * (resp.getD (4 * i + 2) 0).toNat + 16777216 * (resp.getD (4 * i + 3) 0).toNat)

/-! ### Command words (R80–R85) -/

/-- The word of the assembly forms of R85. -/
def word (op nm1 arg8 : Nat) (dir : Bool) : Word :=
  BitVec.ofNat 32 (op + 16 * nm1 + 256 * arg8 + if dir then 65536 else 0)

/-- R83, field by field on the number of the word. -/
def wellFormedWord (w : Word) : Prop :=
  let op := w.toNat % 16
  let nm1 := w.toNat / 16 % 16
  let arg8 := w.toNat / 256 % 256
  let dir := w.toNat / 65536 % 2
  w.toNat / 131072 = 0
    ∧ ((op = 1 ∧ dir = 0)
      ∨ ((op = 2 ∨ op = 3) ∧ nm1 = 0 ∧ dir = 0)
      ∨ ((op = 4 ∨ op = 5) ∧ arg8 = 0 ∧ dir = 0)
      ∨ ((op = 6 ∨ op = 7) ∧ nm1 = 0 ∧ arg8 = 0 ∧ dir = 0)
      ∨ (op = 8 ∧ nm1 = 0 ∧ arg8 ≤ 9))

/-! ### The sequencer (R119–R122) -/

/-- The frame column of R119's table. -/
def frame (s : State) (d : Descriptor) : List Byte :=
  match d.op with
  | .write => writeFrame s.host.uart s.host.devAddr d.a d.v
  | .read => readFrame s.host.uart s.host.devAddr d.a d.v.toNat
  | .bcast => bcastFrame s.host.uart s.host.devAddr d.a d.v
  | .block => blockFrame s.host.uart s.host.devAddr d.v.toNat

/-- The response-length column of R119's table. -/
def responseLength (d : Descriptor) : Nat :=
  match d.op with
  | .write => 1
  | .read => 4 * d.v.toNat + 1
  | .bcast => 0
  | .block => 4 * d.v.toNat + 1

/-- Execute (R101). -/
def launched (bytes : List Byte) (n : Nat) (s : State) : State :=
  { s with st := { s.st with
    txFrame := bytes, txIdx := 0, expN := n, outcome := .none, respWords := [], engState := .guard } }

/-- m(a) (R120). -/
def offsetFor (a : Byte) : OffsetMode := if a.toNat < 0x80 then .off else .on

/-- SW (R120). -/
def switchFor (s : State) (d : Descriptor) : Descriptor :=
  ⟨.write, 0x7F, if d.a.toNat < 0x80 then s.env.cfg.opn.magicOffsetOff else s.env.cfg.opn.magicOffsetOn, .switch⟩

/-- The four conditions of R120. -/
abbrev mustSwitch (s : State) (d : Descriptor) : Prop :=
  (s.host.wireMode = .spi4 ∨ s.host.wireMode = .spi3) ∧ (d.op = .write ∨ d.op = .read ∨ d.op = .bcast)
    ∧ d.a.toNat % 128 ≠ 0x7F ∧ s.st.offsetMode ≠ offsetFor d.a

/-- `P_ADDR_SYS_BLK_ADDR[0..3]` in the wire mode in force (R7, log 16). -/
def sysBlk (s : State) : Vector Byte 4 :=
  if s.host.wireMode = .uart then s.env.cfg.opn.addrSysBlkUart else s.env.cfg.opn.addrSysBlk

/-- The condition of R125 (b). -/
abbrev dropsHandle (s : State) (d : Descriptor) : Prop :=
  (d.op = .write ∨ d.op = .bcast) ∧ d.purpose ≠ .blkcfg ∧ d.a ∈ (sysBlk s).toList

/-- `d` is issued: the pre-issue effect, then Execute (R120, R125). -/
def issued (d : Descriptor) (s : State) : State :=
  launched (frame s d) (responseLength d)
    { s with st := { s.st with
      blkValid := if dropsHandle s d then false else s.st.blkValid
      blkCount := if dropsHandle s d then 0 else s.st.blkCount } }

/-- Xfer with `d` at `st.seq_step` (R120). -/
def transferred (d : Descriptor) (s : State) : State :=
  if mustSwitch s d then
    issued (switchFor s d)
      { s with st := { s.st with seqList := s.st.seqList.insertIdx s.st.seqStep (switchFor s d) } }
  else issued d s

/-! ### Acceptance and completion (R164, R167) -/

/-- No command runs, the RPE is Healthy, BAUD is not 0 and the engine is IDLE. -/
abbrev ready (s : State) : Prop :=
  s.st.seqOwner ≠ .host ∧ s.rpe.resetting = false ∧ s.host.baud ≠ 0 ∧ s.st.engState = .idle

/-- A bus command is accepted and its sequence stands at step 0 (R164, R122). -/
def accepted (w : Word) (list : List Descriptor) (s : State) : State :=
  { s with
    rpe := { s.rpe with done := false, lock := true }
    st := { s.st with cmd := w, seqOwner := .host, seqList := list, seqStep := 0 } }

/-- A command word that completes at acceptance with an error (R164, R166). -/
def rejected (code : Nat) (w : Word) (s : State) : State :=
  { s with
    rpe := { s.rpe with done := true, errCode := BitVec.ofNat 4 code, errCause := 0, errStep := 0 }
    st := { s.st with cmd := w } }

/-- A running host command completes (R167). -/
def completed (code cause step : Nat) (s : State) : State :=
  { s with
    rpe := { s.rpe with
      done := true
      errCode := BitVec.ofNat 4 code
      errCause := BitVec.ofNat 4 cause
      errStep := BitVec.ofNat 8 step }
    st := { s.st with seqOwner := .none, seqList := [], seqStep := 0 } }

/-- A pipeline command completes (R137, R149, R150). -/
def calculated (out : Word) (flags : CalFlags) (w : Word) (s : State) : State :=
  { s with
    rpe := { s.rpe with done := true, errCode := 0, errCause := 0, errStep := 0, calOut := out, calFlags := flags }
    st := { s.st with cmd := w } }

/-! ### The pipeline (R135–R160) -/

/-- Σ over i = 0..7 of decimal digit i times 16^i (R135). -/
def bcd (n : Nat) : Word := BitVec.ofNat 32 ((List.range 8).map (fun i => n / 10 ^ i % 10 * 16 ^ i)).sum

/-- `q` of a ratio kind (R139, R146): x · 10 · 2^F over the factor, 0 where the factor is 0. -/
def ratio (s : State) (x factor : Nat) : Nat :=
  if factor = 0 then 0 else x * 10 * 2 ^ s.env.cfg.calFracBits / factor

/-- The creep test of R145, on naturals. -/
def creeps (s : State) (mag factor : Nat) : Bool :=
  s.host.calcfg.getLsbD 0
    && decide (factor = 0
      ∨ 200000000 * mag * 2 ^ s.env.cfg.calFracBits < 3 * s.host.ib.toNat * s.host.un.toNat * factor)

/-- The sign of R142. -/
def signBit (s : State) (dir : Bool) : Bool := if s.host.calcfg.getLsbD 4 then dir else s.host.data.msb

/-- `calrms_signed` without its creep writes (R149). -/
def signedKind (w : Word) (power : Bool) (factor : Nat) (dir : Bool) (s : State) : State :=
  let mag := s.host.data.toInt.natAbs
  calculated (bcd (ratio s mag factor) ||| (if signBit s dir then 0x00800000 else 0))
    ⟨signBit s dir, power && creeps s mag factor, decide (10 ^ 8 ≤ ratio s mag factor), false, decide (factor = 0)⟩ w s

/-- `calrms_unsigned` (R150); `creep` is the paired power command's flag. -/
def unsignedKind (w : Word) (creep : Bool) (factor : Nat) (s : State) : State :=
  let q := ratio s s.host.data.toNat factor
  let supp := s.host.calcfg.getLsbD 1 && creep && decide (q < s.host.iSuppressTh.toNat)
  calculated (if supp then 0 else bcd q) ⟨false, false, decide (10 ^ 8 ≤ q), supp, decide (factor = 0)⟩ w s

/-- PG_B (R143). -/
def pgB (s : State) : Nat := if s.host.calcfg.getLsbD 2 then 5 * s.host.pg.toNat / 9 else s.host.pg.toNat

/-! ### Time (R15, R16, R103–R108) -/

/-- The least natural not below a / b (R16). -/
def ceil (a b : Nat) : Nat := if a % b = 0 then a / b else a / b + 1

/-- `T_us(n)` (R105). -/
def timeout (s : State) (n : Nat) : Nat :=
  ceil ((if s.host.wireMode = .uart then s.env.cfg.bpbUart else s.env.cfg.bpbSpi) * n * 1400000) s.host.baud.toNat

/-- `guard_us` (R104). -/
def guardTime (s : State) : Nat :=
  let turnaround := ceil (s.env.cfg.opn.turnaroundBits * 10 ^ 6) s.host.baud.toNat
  match s.host.wireMode with
  | .uart => turnaround
  | .spi4 => max turnaround s.env.cfg.spi4IdleUs
  | .spi3 => max turnaround s.env.cfg.spi3PreopUs

/-- The times of R7's table that are given in microseconds. -/
def fixedTimes (c : Params) : List Nat :=
  [c.csSetupUs, c.csHoldUs, c.spi4IdleUs, c.spi3PreopUs, c.resetPreHighUs, c.resetLowUs, c.resetWaitUs]

/-- A counter has reached `ticks(us)` (R15). -/
abbrev reached (count : Word) (us : Nat) : Prop := us = 0 ∨ us + 1 ≤ count.toNat

/-- min(x + 1, 0xFFFFFFFF) (R108). -/
def sat (x : Word) : Word := BitVec.ofNat 32 (min (x.toNat + 1) 0xFFFFFFFF)

/-! ### The transaction end (R115–R117, R121) -/

/-- The outcome is a failure (R117). -/
abbrev failing (o : TxOutcome) : Prop := o = .timedOut ∨ o = .cksumMismatch

/-- The outcome lets the sequence go on with `d` done (R122): a broadcast ends unchecked, all else COMPLETE. -/
abbrev good (s : State) (d : Descriptor) : Prop :=
  s.st.outcome = .complete ∨ (s.st.outcome = .completeNoCheck ∧ d.op = .bcast)

/-- The offset mode after `d` ended with the state's outcome (R121). -/
def offsetAfter (d : Descriptor) (s : State) : OffsetMode :=
  if s.host.wireMode = .uart then s.st.offsetMode
  else if d.op = .write ∧ d.a.toNat % 128 = 0x7F then
    if failing s.st.outcome then .unknown
    else if d.v = s.env.cfg.opn.magicOffsetOn then .on
    else if d.v = s.env.cfg.opn.magicOffsetOff then .off
    else .unknown
  else if d.op = .bcast ∧ d.a = 0x7F then .unknown
  else s.st.offsetMode

/-- `st.fail_count` after a transaction end that does not reach three (R117). -/
def failCountAfter (s : State) : Nat :=
  if s.st.seqOwner = .host then
    if failing s.st.outcome then s.st.failCount + 1 else if s.st.outcome = .complete then 0 else s.st.failCount
  else s.st.failCount

/-- Steps (1) and (2) of a transaction end, and R121 (R115, R116, R117). -/
def booked (d : Descriptor) (s : State) : State :=
  { s with
    rpe := { s.rpe with
      cksumErrCnt := if s.st.outcome = .cksumMismatch then sat s.rpe.cksumErrCnt else s.rpe.cksumErrCnt
      timeoutCnt := if s.st.outcome = .timedOut then sat s.rpe.timeoutCnt else s.rpe.timeoutCnt }
    st := { s.st with
      engState := .idle, gapTicks := 0, rxFifo := [], txIdx := 0
      failCount := failCountAfter s
      offsetMode := offsetAfter d s } }

/-- err(o) (R122). -/
def errorOf (o : TxOutcome) : Nat := if o = .timedOut then 2 else 1

/-- The completion of a host command whose transaction failed (R126–R131). -/
def failedCommand (s t : State) : State :=
  if decodeCmd s.st.cmd = .ok .loadConfig then completed 3 (errorOf s.st.outcome) s.st.seqStep t
  else completed (errorOf s.st.outcome) 0 s.st.seqStep t

/-- RESULT[0..n−1] are the response words, the rest stay (R34). -/
def withResults (n : Nat) (s : State) : State :=
  { s with rpe := { s.rpe with
    result := Vector.ofFn (fun i : Fin 16 => if i.val < n then s.st.respWords.getD i.val 0 else s.rpe.result[i]) } }

/-- An outcome is fixed: HOLD in SPI 4-wire, the transaction end at once elsewhere (R115). -/
def concluded (o : TxOutcome) (s : State) : Host.Outcome State Fault Refusal :=
  if s.host.wireMode = .spi4 then
    .next { s with st := { s.st with outcome := o, engState := .hold, waitTicks := 0 } }
  else txEnd { s with st := { s.st with outcome := o } }

/-- The RPE runs: `rst` is 0. -/
abbrev running (s : State) : Prop := s.env.rst = false

/-- The only difference is what the bus interface answered. -/
def answered (b : BusResponse) (s : State) : State := { s with env := { s.env with bus := b } }

/-! ### The register window (R19, R20) -/

/-- Bytes 0x100–0x174: CFG_IMAGE. -/
abbrev imageOffset (off : BitVec 12) : Prop := 0x100 ≤ off.toNat ∧ off.toNat ≤ 0x174

/-- CALCFG, DATA, BLK_LIST and the factor registers (R38 b). -/
abbrev operandOffset (off : BitVec 12) : Prop :=
  off.toNat = 0x008 ∨ off.toNat = 0x010 ∨ (0x080 ≤ off.toNat ∧ off.toNat ≤ 0x08C)
    ∨ (0x180 ≤ off.toNat ∧ off.toNat ≤ 0x1A0)

/-- DEVCFG and BAUD (R38 a). -/
abbrev deviceOffset (off : BitVec 12) : Prop := off.toNat = 0x000 ∨ off.toNat = 0x004

/-- The read-only registers of R19: ERR, CAL_OUT, CAL_FLAGS, LAST_CKSUM, RESULT. -/
abbrev readOnlyOffset (off : BitVec 12) : Prop :=
  off.toNat = 0x018 ∨ (0x028 ≤ off.toNat ∧ off.toNat ≤ 0x030) ∨ (0x040 ≤ off.toNat ∧ off.toNat ≤ 0x07C)

/-- The offsets R19 does not list (R20). -/
abbrev reservedOffset (off : BitVec 12) : Prop :=
  (0x034 ≤ off.toNat ∧ off.toNat ≤ 0x03C) ∨ (0x090 ≤ off.toNat ∧ off.toNat ≤ 0x0FC)
    ∨ (0x178 ≤ off.toNat ∧ off.toNat ≤ 0x17C) ∨ 0x1A4 ≤ off.toNat

/-- What an aligned read at `off` returns. -/
abbrev readAt (s : State) (off : BitVec 12) : Word := csrRead s (csrAt off)

/-- What a writable register keeps of the word written to it (R20, R24, R29). -/
def kept (off : BitVec 12) (w : Word) : Word :=
  if off.toNat = 0x008 then w &&& 0x1F else if off.toNat = 0x01C then w &&& 7 else w

end Sys2Proof.Spec

open Sys2Proof Sys2Proof.Machine Sys2Proof.Spec

/-! ## Encodings -/

/-- Decode and encode agree on every well-formed instruction (R73–R77, R80–R82). -/
def Obligations.DecodeUndoesEncode : Prop := ∀ i : Instr, i.wf = true → decode (encode i) = .ok i

/-- A command word that decodes is the encoding of what it decodes to, and that is well-formed (R80–R83). -/
def Obligations.EncodeUndoesDecode : Prop :=
  ∀ (w : Word) (i : Instr), decodeCmd w = .ok i → encode i = .cmd w ∧ i.wf = true

/-- R83: exactly the words that meet its three conditions decode. -/
def Obligations.WellFormedWordsDecode : Prop :=
  ∀ w : Word, (∃ i, decodeCmd w = .ok i) ↔ wellFormedWord w

/-- A wire operation's whole frame, header and checksum included, reads back, and no frame of the other wire form is
taken for it (R70–R72, R78). -/
def Obligations.FramesRoundTrip : Prop :=
  ∀ (uart : Bool) (i : Instr) (body : List Byte), i.wf = true → encode i = .wire body →
    decodeFrame uart (encodeFrame uart i) = .ok i
    ∧ (encodeFrame uart i).length = (if uart then 1 else 0) + body.length + 1
    ∧ encodeFrame true i = 0x7D :: encodeFrame false i
    ∧ ∀ j, decodeFrame (!uart) (encodeFrame uart i) ≠ .ok j

/-- Words written out from R73 and R80 decode to what they stand for: a sanity check. -/
def Obligations.WrittenOutWordsDecode : Prop :=
  decodeCmd 0x000004F1 = .ok (.read 16 0x04)
    ∧ decodeCmd 0x00010208 = .ok (.calrmsPb true)
    ∧ decodeCmd 0x00000094 = .ok (.cfgBlock 10)
    ∧ decodeFrame true [0x7D, 0x02, 0x04, 0x23, 0x27, 0x00, 0x00, 0xE2] = .ok (.wireWrite 0 0x04 0x00002723)
    ∧ decodeFrame false [0xFD, 0x08, 0x2D] = .ok (.wireRead 16 3 0x08)
    ∧ decodeFrame true [0x7D, 0x97, 0x00, 0x9B] = .ok (.wireBlock 10 1)

/-- R88: the checksum is 0x32 − Σ mod 256, and complementing the unreduced sum gives the same byte. -/
def Obligations.ChecksumClosedForm : Prop :=
  ∀ l : List Byte, frameChecksum l = ck l
    ∧ frameChecksum l = BitVec.ofInt 8 (0x33 + (-(total l : Int) - 1))

/-- R89: changing one byte of the summed bytes changes the checksum, and a read response in which one byte was changed,
a data byte or the checksum byte, fails. -/
def Obligations.CorruptionIsDetected : Prop :=
  (∀ (l : List Byte) (k : Nat) (b c : Byte), l[k]? = some b → b ≠ c → frameChecksum (l.set k c) ≠ frameChecksum l)
    ∧ ∀ (c1 c2 : Byte) (n : Nat) (resp : List Byte) (words : List Word) (k : Nat) (b c : Byte),
        resp.length = 4 * n + 1 → decodeReadResp c1 c2 n resp = some words → resp[k]? = some b → b ≠ c →
        decodeReadResp c1 c2 n (resp.set k c) = none

/-- R90–R94: each encoder builds its request byte for byte, for every address byte, bit 7 of which it ignores. -/
def Obligations.EncodersBuildTheirFrames : Prop :=
  ∀ (uart : Bool) (dev : BitVec 2) (a : Byte) (v : Word) (n : Nat), 1 ≤ n → n ≤ 16 →
    encodeWrite uart dev a v = writeFrame uart dev a v
    ∧ encodeBroadcast uart dev a v = bcastFrame uart dev a v
    ∧ encodeRead uart dev a n = readFrame uart dev a n
    ∧ encodeBlockRead uart dev n = blockFrame uart dev n

/-- R95–R97: what each decoder accepts, and the words it then returns. -/
def Obligations.DecodersJudgeTheResponse : Prop :=
  (∀ (req : List Byte) (q r : Byte), req.getLast? = some q →
    decodeWriteResp req [r] = if r = q then some [] else none)
  ∧ ∀ (c1 c2 : Byte) (n : Nat) (resp : List Byte), resp.length = 4 * n + 1 →
    decodeReadResp c1 c2 n resp
      = (if resp[4 * n]? = some (ck ([c1, c2] ++ resp.take (4 * n))) then some ((List.range n).map (wordAt resp))
         else none)
    ∧ decodeBlockResp c1 n resp = decodeReadResp c1 0x00 n resp

/-! ## Reset and the register window -/

/-- R44: on assertion of `rst` every CSR reads its reset value and the hidden state takes the listed values. -/
def Obligations.BlockResetTakesEveryValue : Prop :=
  ∀ s : State, ∃ t, agentStep (.rst true) s = .next t
    ∧ (∀ off : BitVec 12, off.toNat % 4 = 0 →
        readAt t off = if off.toNat = 0x008 then 1 else if off.toNat = 0x014 then 0x00002000 else 0)
    ∧ t.st.cmd = 0 ∧ t.st.seqList = [] ∧ t.st.seqStep = 0 ∧ t.st.seqOwner = .none ∧ t.st.engState = .idle
    ∧ t.st.txFrame = [] ∧ t.st.txIdx = 0 ∧ t.st.expN = 0 ∧ t.st.waitTicks = 0 ∧ t.st.gapTicks = 0
    ∧ t.st.rxFifo = [] ∧ t.st.outcome = .none ∧ t.st.respWords = [] ∧ t.st.failCount = 0
    ∧ t.st.offsetMode = .unknown ∧ t.st.blkValid = false ∧ t.st.blkCount = 0 ∧ t.st.recPhase = .none
    ∧ t.st.creepA = false ∧ t.st.creepB = false ∧ t.st.lineLow = false
    ∧ t.rpe.resetting = false ∧ (ports t).irq = false ∧ t.env.rst = true

/-- R182: while `rst` = 1 no agent step has an effect and a host read returns the reset value; when `rst` falls the RPE is
IDLE, Healthy and not BUSY. -/
def Obligations.ResetHoldsTheMachine : Prop :=
  ∀ (e : Event) (s : State), s.env.rst = true →
    ∃ t, agentStep e s = .next t
      ∧ t.host = State.reset.host ∧ t.rpe = State.reset.rpe ∧ t.st = State.reset.st
      ∧ t.env.sent = s.env.sent ∧ t.env.cfg = s.env.cfg
      ∧ (e ≠ .rst false → t.env.rst = true) ∧ (e = .rst false → t.env.rst = false)
      ∧ ∀ off : BitVec 12, e = .hostRead off 4 → off.toNat % 4 = 0 →
          t.env.bus = .data (readAt State.reset off)

/-- R39: a host read of any CSR changes no register, flag, counter or hidden state. That a partial, wide or misaligned read,
which R57 answers with an error, takes a next state too is the model's choice (log 4). -/
def Obligations.ReadsHaveNoSideEffect : Prop :=
  ∀ (off : BitVec 12) (size : Nat) (s : State), running s →
    ∃ t, agentStep (.hostRead off size) s = .next t ∧ t.host = s.host ∧ t.rpe = s.rpe ∧ t.st = s.st
      ∧ t.env.sent = s.env.sent ∧ ∀ k : BitVec 12, readAt t k = readAt s k

/-- R19, R20, R25: what an aligned read answers at each offset of the window; StatusShowsItsFields says what the word at
STATUS holds. -/
def Obligations.WindowReads : Prop :=
  ∀ (off : BitVec 12) (s : State), running s → off.toNat % 4 = 0 →
    ∃ v, agentStep (.hostRead off 4) s = .next (answered (.data v) s)
      ∧ (off.toNat = 0x000 →
          v.toNat = s.host.devAddr.toNat
            + 4 * (match s.host.wireMode with | .uart => 0 | .spi4 => 1 | .spi3 => 2))
      ∧ (off.toNat = 0x004 → v = s.host.baud)
      ∧ (off.toNat = 0x008 → v.toNat = s.host.calcfg.toNat)
      ∧ (off.toNat = 0x00C → v = 0)
      ∧ (off.toNat = 0x010 → v = s.host.data)
      ∧ (off.toNat = 0x014 → v = readAt s 0x014)
      ∧ (off.toNat = 0x018 →
          v.toNat = s.rpe.errCode.toNat + 16 * s.rpe.errCause.toNat + 256 * s.rpe.errStep.toNat
            + 65536 * s.rpe.recCause.toNat)
      ∧ (off.toNat = 0x01C → v.toNat = s.host.ie.toNat)
      ∧ (off.toNat = 0x020 → v = s.rpe.cksumErrCnt)
      ∧ (off.toNat = 0x024 → v = s.rpe.timeoutCnt)
      ∧ (off.toNat = 0x028 → v = s.rpe.calOut)
      ∧ (off.toNat = 0x02C →
          v.toNat = s.rpe.calFlags.sign.toNat + 2 * s.rpe.calFlags.creep.toNat + 4 * s.rpe.calFlags.ovf.toNat
            + 8 * s.rpe.calFlags.suppressed.toNat + 16 * s.rpe.calFlags.divZero.toNat
            + 256 * s.st.creepA.toNat + 512 * s.st.creepB.toNat)
      ∧ (off.toNat = 0x030 → v = s.rpe.lastCksum)
      ∧ (∀ i : Fin 16, off.toNat = 0x040 + 4 * i.val → v = s.rpe.result[i])
      ∧ (∀ j : Fin 4, off.toNat = 0x080 + 4 * j.val → v = s.host.blkList[j])
      ∧ (∀ i : Fin 30, off.toNat = 0x100 + 4 * i.val → v = s.host.cfgImage[i])
      ∧ (off.toNat = 0x180 → v = s.host.pg) ∧ (off.toNat = 0x184 → v = s.host.urmg)
      ∧ (off.toNat = 0x188 → v = s.host.i1rmg) ∧ (off.toNat = 0x18C → v = s.host.i2rmg)
      ∧ (off.toNat = 0x190 → v = s.host.ib) ∧ (off.toNat = 0x194 → v = s.host.un)
      ∧ (off.toNat = 0x198 → v = s.host.sRatio) ∧ (off.toNat = 0x19C → v = s.host.freqConst)
      ∧ (off.toNat = 0x1A0 → v = s.host.iSuppressTh)
      ∧ (reservedOffset off → v = 0)

/-- R27: the fields of a STATUS read, each at its place, in every state whose views fit their fields. -/
def Obligations.StatusShowsItsFields : Prop :=
  ∀ s : State, s.st.failCount ≤ 3 → s.st.blkCount ≤ 31 →
    (readAt s 0x014).toNat
      = (if s.st.seqOwner = .host then 1 else 0) + 2 * s.rpe.done.toNat + 4 * s.rpe.resetting.toNat
        + 8 * s.rpe.unhealthyEvt.toNat + 16 * s.rpe.recovered.toNat + 32 * s.rpe.recoveryFailed.toNat
        + 64 * s.rpe.cmdOverrun.toNat + 128 * s.rpe.wrLocked.toNat + 256 * s.rpe.rxOverflow.toNat
        + 512 * s.rpe.lock.toNat + 1024 * s.st.failCount
        + 4096 * (match s.st.offsetMode with | .off => 0 | .on => 1 | .unknown => 2)
        + 16384 * s.st.blkValid.toNat + 65536 * s.st.blkCount
        + 2097152 * (match s.st.engState with
            | .idle => 0 | .guard => 1 | .setup => 2 | .sending => 3 | .awaiting => 4 | .hold => 5)
        + 16777216 * (match s.st.recPhase with
            | .none => 0 | .preHigh => 1 | .low => 2 | .postWait => 3 | .reinit => 4 | .reload => 5)

/-- R57: a partial, wide or misaligned access changes no state, and the bus interface answers with an error, to a read with
the data 0x00000000. That this answer is a next state and no fault of the model is the model's choice (log 4). -/
def Obligations.BadAccessesAreErrors : Prop :=
  ∀ (off : BitVec 12) (size : Nat) (w : Word) (s : State), running s → size ≠ 4 ∨ off.toNat % 4 ≠ 0 →
    agentStep (.hostRead off size) s = .next (answered (.readError 0) s)
    ∧ agentStep (.hostWrite off size w) s = .next (answered .writeError s)

/-- R38: a write to a locked register leaves every register but STATUS.WR_LOCKED as it was, and STATUS, IE, the two
counters and CMD are never locked. -/
def Obligations.LockedWritesAreRefused : Prop :=
  ∀ (off : BitVec 12) (w : Word) (s : State), running s → off.toNat % 4 = 0 →
    (((deviceOffset off ∧ s.rpe.lock = true)
        ∨ (operandOffset off ∧ s.st.seqOwner = .host)
        ∨ (imageOffset off ∧ (s.st.seqOwner = .host ∨ s.rpe.resetting = true))) →
      agentStep (.hostWrite off 4 w) s
        = .next (answered .ack { s with rpe := { s.rpe with wrLocked := true } }))
    ∧ ((off.toNat = 0x014 ∨ off.toNat = 0x01C ∨ off.toNat = 0x020 ∨ off.toNat = 0x024 ∨ off.toNat = 0x00C) →
      ∃ t, agentStep (.hostWrite off 4 w) s = .next t ∧ (t.rpe.wrLocked = true → s.rpe.wrLocked = true))

/-- R59 with R20, R24, R29, R30: an open register keeps what is written to it, a counter becomes 0, a read-only or reserved
offset ignores the write, and no other register of the window and no hidden state changes. That a write to a read-only
register sets no flag is the model's choice (log 9). -/
def Obligations.OpenWritesAreStored : Prop :=
  ∀ (off : BitVec 12) (w : Word) (s : State), running s → off.toNat % 4 = 0 →
    (off.toNat = 0x004 ∧ s.rpe.lock = false)
      ∨ (operandOffset off ∧ s.st.seqOwner ≠ .host)
      ∨ (imageOffset off ∧ s.st.seqOwner ≠ .host ∧ s.rpe.resetting = false)
      ∨ off.toNat = 0x01C ∨ off.toNat = 0x020 ∨ off.toNat = 0x024 ∨ readOnlyOffset off ∨ reservedOffset off →
    ∃ t, agentStep (.hostWrite off 4 w) s = .next t
      ∧ t.st = s.st ∧ t.env = { s.env with bus := .ack }
      ∧ readAt t off
        = (if off.toNat = 0x020 ∨ off.toNat = 0x024 then 0
           else if readOnlyOffset off ∨ reservedOffset off then readAt s off
           else kept off w)
      ∧ ∀ k : BitVec 12, k.toNat % 4 = 0 → k ≠ off → readAt t k = readAt s k

/-- R21, R22: DEVCFG, while STATUS.LOCK = 0, takes DEV_ADDR and a legal WIRE_MODE; WIRE_MODE = 3 leaves WIRE_MODE as it
was and sets no flag. -/
def Obligations.WireModeKeepsALegalValue : Prop :=
  ∀ (w : Word) (s : State), running s → s.rpe.lock = false →
    agentStep (.hostWrite 0x000 4 w) s
      = .next (answered .ack { s with host := { s.host with
          devAddr := BitVec.ofNat 2 (w.toNat % 4)
          wireMode := if w.toNat / 4 % 4 = 0 then .uart else if w.toNat / 4 % 4 = 1 then .spi4
            else if w.toNat / 4 % 4 = 2 then .spi3 else s.host.wireMode } })

/-- R27: a write to STATUS clears the W1C bits written with 1 (bits 1 and 3 to 8) and changes nothing else. -/
def Obligations.StatusWritesClearFlags : Prop :=
  ∀ (w : Word) (s : State), running s →
    ∃ t, agentStep (.hostWrite 0x014 4 w) s = .next t
      ∧ readAt t 0x014 = readAt s 0x014 &&& ~~~(w &&& 0x000001FA)
      ∧ t.host = s.host ∧ t.st = s.st ∧ ∀ k : BitVec 12, k.toNat % 4 = 0 → k ≠ 0x014 → readAt t k = readAt s k

/-! ## Acceptance -/

/-- R163: a CMD write while BUSY = 1 is dropped with CMD_OVERRUN and nothing else changes, whatever the word; while
BUSY = 0, in either health state, no CMD write is an overrun. -/
def Obligations.CommandWhileBusyIsDropped : Prop :=
  ∀ (w : Word) (s : State), running s →
    (s.st.seqOwner = .host →
      agentStep (.hostWrite 0x00C 4 w) s
        = .next (answered .ack { s with rpe := { s.rpe with cmdOverrun := true } }))
    ∧ (s.st.seqOwner ≠ .host →
      ∃ t, agentStep (.hostWrite 0x00C 4 w) s = .next t ∧ t.rpe.cmdOverrun = s.rpe.cmdOverrun)

/-- R84, R164 (1) and (2), R167: a word that R83 does not allow is latched and completes at once with BadCommand, cause 0
and step 0, without bus activity, also while a recovery runs. -/
def Obligations.IllFormedWordsAreBadCommands : Prop :=
  ∀ (w : Word) (s : State), running s → s.st.seqOwner ≠ .host → ¬ wellFormedWord w →
    agentStep (.hostWrite 0x00C 4 w) s = .next (answered .ack (rejected 6 w s))

/-- R164 (3) and (4), R165: while Resetting every bus command completes with DeviceResetting, and while Healthy with
BAUD = 0 with PreconditionViolation. -/
def Obligations.BusCommandsNeedAHealthyTimedDevice : Prop :=
  ∀ (i : Instr) (w : Word) (s : State), s.st.seqOwner ≠ .host → encode i = .cmd w → i.wf = true →
    (∃ n a, i = .read n a) ∨ (∃ a, i = .write a) ∨ (∃ a, i = .broadcast a) ∨ (∃ n, i = .cfgBlock n)
      ∨ (∃ n, i = .blockRead n) ∨ i = .loadConfig →
    (s.rpe.resetting = true → exec i s = .next (rejected 5 w s))
    ∧ (s.rpe.resetting = false → s.host.baud = 0 → exec i s = .next (rejected 4 w s))

/-- R124, R164 (5): an address out of the wire mode's range, or a block read without its handle, completes with
PreconditionViolation and no bus activity. -/
def Obligations.RangeViolationsAreRejected : Prop :=
  ∀ (n : Nat) (a : Byte) (s : State), 1 ≤ n → n ≤ 16 →
    s.st.seqOwner ≠ .host → s.rpe.resetting = false → s.host.baud ≠ 0 →
    ((if s.host.wireMode = .uart then 0x7F < a.toNat + n - 1
      else 0xFE < a.toNat + n - 1 ∨ (a.toNat < 0x80 ∧ 0x7F < a.toNat + n - 1)) →
        exec (.read n a) s = .next (rejected 4 (word 1 (n - 1) a.toNat false) s))
    ∧ ((if s.host.wireMode = .uart then 0x7F < a.toNat else a = 0xFF) →
        exec (.write a) s = .next (rejected 4 (word 2 0 a.toNat false) s))
    ∧ (0x7F < a.toNat → exec (.broadcast a) s = .next (rejected 4 (word 3 0 a.toNat false) s))
    ∧ ((s.st.blkValid = false ∨ s.st.blkCount ≠ n) →
        exec (.blockRead n) s = .next (rejected 4 (word 5 (n - 1) 0 false) s))

/-! ## The bus commands -/

/-- R126: READ, accepted with its range in order, starts its one read transaction, behind a switch where R120 wants one. -/
def Obligations.ReadStartsItsTransaction : Prop :=
  ∀ (n : Nat) (a : Byte) (s : State), 1 ≤ n → n ≤ 16 → ready s →
    (if s.host.wireMode = .uart then a.toNat + n - 1 ≤ 0x7F
     else a.toNat + n - 1 ≤ 0xFE ∧ (0x80 ≤ a.toNat ∨ a.toNat + n - 1 ≤ 0x7F)) →
    exec (.read n a) s
      = .next (transferred ⟨.read, a, BitVec.ofNat 32 n, .cmd⟩
          (accepted (word 1 (n - 1) a.toNat false) [⟨.read, a, BitVec.ofNat 32 n, .cmd⟩] s))

/-- R127, R128: WRITE and BROADCAST start the one transaction that carries DATA to their address, behind a switch where
R120 wants one; a BROADCAST's address is in every wire mode at most 0x7F. -/
def Obligations.WriteAndBroadcastStartTheirTransactions : Prop :=
  ∀ (a : Byte) (s : State), ready s →
    ((if s.host.wireMode = .uart then a.toNat ≤ 0x7F else a ≠ 0xFF) →
      exec (.write a) s
        = .next (transferred ⟨.write, a, s.host.data, .cmd⟩
            (accepted (word 2 0 a.toNat false) [⟨.write, a, s.host.data, .cmd⟩] s)))
    ∧ (a.toNat ≤ 0x7F →
      exec (.broadcast a) s
        = .next (transferred ⟨.bcast, a, s.host.data, .cmd⟩
            (accepted (word 3 0 a.toNat false) [⟨.bcast, a, s.host.data, .cmd⟩] s)))

/-- R129, R125 (a): CFG_BLOCK drops the handle and starts its four writes of BLK_LIST to the SYS_BLK_ADDR registers, whose
addresses have seven bits in UART (R7). That UART and SPI may have addresses of their own is the model's choice (log 16). -/
def Obligations.CfgBlockStartsItsWrites : Prop :=
  ∀ (n : Nat) (s : State), 1 ≤ n → n ≤ 16 → ready s →
    let entry := fun j : Fin 4 => (⟨.write, (sysBlk s)[j], s.host.blkList[j], .blkcfg⟩ : Descriptor)
    exec (.cfgBlock n) s
      = .next (transferred (entry 0)
          (accepted (word 4 (n - 1) 0 false) [entry 0, entry 1, entry 2, entry 3]
            { s with st := { s.st with blkValid := false, blkCount := 0 } }))
    ∧ (s.host.wireMode = .uart → ∀ j : Fin 4, (entry j).a.toNat ≤ 0x7F)

/-- R130: BLOCK_READ with its handle in force starts its block transaction, with no switch in any wire mode, and keeps the
handle. -/
def Obligations.BlockReadStartsItsTransaction : Prop :=
  ∀ (n : Nat) (s : State), 1 ≤ n → n ≤ 16 → ready s → s.st.blkValid = true → s.st.blkCount = n →
    exec (.blockRead n) s
      = .next (launched (blockFrame s.host.uart s.host.devAddr n) (4 * n + 1)
          (accepted (word 5 (n - 1) 0 false) [⟨.block, 0, BitVec.ofNat 32 n, .cmd⟩] s))

/-- R131: LOAD_CONFIG writes LAST_CKSUM and starts its list with the first image word at address 0x00. -/
def Obligations.LoadConfigStartsItsWrites : Prop :=
  ∀ s : State, ready s →
    exec .loadConfig s
      = .next (transferred ⟨.write, 0x00, s.host.cfgImage[0], .config⟩
          (accepted (word 6 0 0 false) (lcList s.env.cfg s.host.uart s.host.cfgImage)
            { s with rpe := { s.rpe with lastCksum := configCksum s.env.cfg s.host.cfgImage } }))

/-- R91–R94, R101: each wire operation, the engine being IDLE, loads its request frame and its expected response length
and enters GUARD; it changes nothing else. That it changes nothing at all outside IDLE, where R101 does not enable it, is the
model's choice (log 7). -/
def Obligations.WireOperationsLoadTheirFrames : Prop :=
  ∀ (n : Nat) (dev : BitVec 2) (a : Byte) (v : Word) (s : State), 1 ≤ n → n ≤ 16 →
    (s.st.engState = .idle →
      exec (.wireWrite dev a v) s = .next (launched (writeFrame s.host.uart dev a v) 1 s)
      ∧ exec (.wireBroadcast dev a v) s = .next (launched (bcastFrame s.host.uart dev a v) 0 s)
      ∧ exec (.wireRead n dev a) s = .next (launched (readFrame s.host.uart dev a n) (4 * n + 1) s)
      ∧ exec (.wireBlock n dev) s = .next (launched (blockFrame s.host.uart dev n) (4 * n + 1) s))
    ∧ (s.st.engState ≠ .idle →
      exec (.wireWrite dev a v) s = .next s ∧ exec (.wireBroadcast dev a v) s = .next s
      ∧ exec (.wireRead n dev a) s = .next s ∧ exec (.wireBlock n dev) s = .next s)

/-! ## The calibration pipeline -/

/-- R137: HEX2BCD completes at acceptance in either health state. -/
def Obligations.Hex2bcdResult : Prop :=
  ∀ s : State, s.st.seqOwner ≠ .host →
    exec .hex2bcd s
      = .next (calculated (bcd s.host.data.toNat) ⟨false, false, decide (10 ^ 8 ≤ s.host.data.toNat), false, false⟩
          (word 7 0 0 false) s)

/-- R149, R151–R156: the six signed kinds, each with its factor; P and PB alone keep the creep flag. -/
def Obligations.SignedKindsResult : Prop :=
  ∀ (dir : Bool) (s : State), s.st.seqOwner ≠ .host →
    exec (.calrmsP dir) s
      = .next (let t := signedKind (word 8 0 0 dir) true s.host.pg.toNat dir s
               { t with st := { t.st with creepA := t.rpe.calFlags.creep } })
    ∧ exec (.calrmsQ dir) s = .next (signedKind (word 8 0 1 dir) true s.host.pg.toNat dir s)
    ∧ exec (.calrmsPb dir) s
      = .next (let t := signedKind (word 8 0 2 dir) true (pgB s) dir s
               { t with st := { t.st with creepB := t.rpe.calFlags.creep } })
    ∧ exec (.calrmsQb dir) s = .next (signedKind (word 8 0 3 dir) true (pgB s) dir s)
    ∧ exec (.calrmsSa dir) s = .next (signedKind (word 8 0 4 dir) false s.host.sRatio.toNat dir s)
    ∧ exec (.calrmsSb dir) s = .next (signedKind (word 8 0 5 dir) false s.host.sRatio.toNat dir s)

/-- R150, R157–R159: U, I1 and I2, each with its factor; only I1 and I2 can be suppressed, by the paired creep flag. -/
def Obligations.UnsignedKindsResult : Prop :=
  ∀ (dir : Bool) (s : State), s.st.seqOwner ≠ .host →
    exec (.calrmsU dir) s = .next (unsignedKind (word 8 0 6 dir) false s.host.urmg.toNat s)
    ∧ exec (.calrmsI1 dir) s = .next (unsignedKind (word 8 0 7 dir) s.st.creepA s.host.i1rmg.toNat s)
    ∧ exec (.calrmsI2 dir) s = .next (unsignedKind (word 8 0 8 dir) s.st.creepB s.host.i2rmg.toNat s)

/-- R148, R160: HZ. -/
def Obligations.FrequencyResult : Prop :=
  ∀ (dir : Bool) (s : State), s.st.seqOwner ≠ .host →
    let scale := if s.host.calcfg.getLsbD 3 then 64 else 16
    let q := if s.host.data = 0 then 0 else 100 * s.host.freqConst.toNat * scale / s.host.data.toNat
    exec (.calrmsHz dir) s
      = .next (calculated (bcd q) ⟨false, false, decide (10 ^ 8 ≤ q), false, decide (s.host.data = 0)⟩
          (word 8 0 9 dir) s)

/-- R135, R136: digit i of n mod 10^8 stands in nibble i, no nibble exceeds 9, and the value wraps modulo 10^8. -/
def Obligations.BcdNibblesAreDigits : Prop :=
  ∀ n : Nat,
    (∀ i, i < 8 → ((bcd8 n).extractLsb' (4 * i) 4).toNat = n % 10 ^ 8 / 10 ^ i % 10)
    ∧ (bcd8 n).toNat ≤ 0x99999999
    ∧ bcd8 n = bcd8 (n % 10 ^ 8)
    ∧ (∀ m, m < 10 ^ 8 → n < 10 ^ 8 → bcd8 m = bcd8 n → m = n)

/-! ## The transaction engine -/

/-- R108: one tick counts the guard counter in IDLE and GUARD, the wait counter in SETUP, AWAITING and HOLD and in the
three timed recovery phases, both with saturation, and does nothing else. -/
def Obligations.TickCounts : Prop :=
  ∀ s : State, running s →
    agentStep .tick s
      = .next { s with st := { s.st with
          gapTicks := if s.st.engState = .idle ∨ s.st.engState = .guard then sat s.st.gapTicks else s.st.gapTicks
          waitTicks :=
            if s.st.engState = .setup ∨ s.st.engState = .awaiting ∨ s.st.engState = .hold
              ∨ s.st.recPhase = .preHigh ∨ s.st.recPhase = .low ∨ s.st.recPhase = .postWait
            then sat s.st.waitTicks else s.st.waitTicks } }

/-- R109, R111: the channel takes the offered byte and the next one is offered, in frame order; a received byte is appended
in every engine state, or dropped with RX_OVERFLOW at 65 bytes. -/
def Obligations.ChannelBytes : Prop :=
  (∀ s : State, running s → s.st.engState = .sending → ∀ b, s.st.txFrame[s.st.txIdx]? = some b →
    (ports s).txValid = true ∧ (ports s).txByte = b
    ∧ agentStep .channelTx s = .next { s with
        st := { s.st with txIdx := s.st.txIdx + 1 }
        env := { s.env with sent := s.env.sent ++ [b] } })
  ∧ (∀ s : State, running s → (s.st.engState ≠ .sending ∨ s.st.txFrame.length ≤ s.st.txIdx) →
    (ports s).txValid = false ∧ agentStep .channelTx s = .next s)
  ∧ ∀ (b : Byte) (s : State), running s →
    (s.st.rxFifo.length < 65 →
      agentStep (.channelRx b) s = .next { s with st := { s.st with rxFifo := s.st.rxFifo ++ [b] } })
    ∧ (65 ≤ s.st.rxFifo.length →
      agentStep (.channelRx b) s = .next { s with rpe := { s.rpe with rxOverflow := true } })

/-- R110: while the channel raises neither `tx_ready` nor `tx_done`, nothing but block reset ends SENDING, and a running
command stays BUSY. -/
def Obligations.SendingOutlivesTheHost : Prop :=
  ∀ (e : Event) (s t : State), running s → s.st.engState = .sending →
    e ≠ .channelTx → e ≠ .engine true → e ≠ .rst true → agentStep e s = .next t →
    t.st.engState = .sending ∧ t.st.txIdx = s.st.txIdx ∧ t.st.txFrame = s.st.txFrame
      ∧ (s.st.seqOwner = .host → t.st.seqOwner = .host)

/-- R104, R107, R109, R111 (b), R115: GUARD ends once `guard_us` is counted, through SETUP in SPI 4-wire alone; SETUP and
HOLD end once their own time is; SENDING ends only with every byte handed over and `tx_done` = 1, into AWAITING with an
empty FIFO where a response is due, else with the outcome COMPLETE_NOCHECK. Until then a step changes nothing. -/
def Obligations.EngineStatesTakeTheirTime : Prop :=
  ∀ (txDone : Bool) (s : State), running s → s.host.baud ≠ 0 →
    (s.st.engState = .guard →
      agentStep (.engine txDone) s
        = .next (if reached s.st.gapTicks (guardTime s) then
            if s.host.wireMode = .spi4 then { s with st := { s.st with engState := .setup, waitTicks := 0 } }
            else { s with st := { s.st with engState := .sending } }
          else s))
    ∧ (s.st.engState = .setup →
      agentStep (.engine txDone) s
        = .next (if reached s.st.waitTicks s.env.cfg.csSetupUs then { s with st := { s.st with engState := .sending } }
          else s))
    ∧ (s.st.engState = .sending →
      agentStep (.engine txDone) s
        = if s.st.txIdx = s.st.txFrame.length ∧ txDone = true then
            if s.st.expN = 0 then concluded .completeNoCheck s
            else .next { s with st := { s.st with engState := .awaiting, rxFifo := [], waitTicks := 0 } }
          else .next s)
    ∧ (s.st.engState = .hold →
      agentStep (.engine txDone) s = if reached s.st.waitTicks s.env.cfg.csHoldUs then txEnd s else .next s)

/-- R112, R113, R114: once the expected bytes are there the response is judged, whatever the wait counter says: a Write by
its echo, a Read or Block by its checksum, whose words are kept. -/
def Obligations.AwaitingJudgesItsResponse : Prop :=
  ∀ (d : Descriptor) (txDone : Bool) (s : State), running s → s.st.engState = .awaiting →
    s.st.txFrame = frame s d → s.st.expN = responseLength d → s.st.expN ≤ s.st.rxFifo.length →
    (d.op = .write →
      agentStep (.engine txDone) s
        = if s.st.rxFifo[0]? = s.st.txFrame.getLast? then
            concluded .complete { s with st := { s.st with respWords := [] } }
          else concluded .cksumMismatch s)
    ∧ ∀ n, 1 ≤ n → n ≤ 16 → d.v = BitVec.ofNat 32 n → d.op = .read ∨ d.op = .block →
      agentStep (.engine txDone) s
        = if s.st.rxFifo[4 * n]?
              = some (ck ([cmd1Byte n s.host.devAddr (if d.op = .read then 1 else 3),
                  if d.op = .read then low7 d.a else 0x00] ++ s.st.rxFifo.take (4 * n))) then
            concluded .complete { s with st := { s.st with respWords := (List.range n).map (wordAt s.st.rxFifo) } }
          else concluded .cksumMismatch s

/-- R112: short of the expected bytes, AWAITING times out once `T_us(n)` is counted, and else stays as it is. -/
def Obligations.AwaitingTimesOut : Prop :=
  ∀ (txDone : Bool) (s : State), running s → s.st.engState = .awaiting → s.host.baud ≠ 0 →
    s.st.rxFifo.length < s.st.expN →
    agentStep (.engine txDone) s
      = if reached s.st.waitTicks (timeout s s.st.expN) then concluded .timedOut s else .next s

/-- R122, R126–R131: the last transaction of a host command ends well: the command completes with OK, READ and BLOCK_READ
with their words in RESULT, CFG_BLOCK with its handle. -/
def Obligations.LastTransactionCompletesItsCommand : Prop :=
  ∀ (d : Descriptor) (i : Instr) (s : State), s.st.seqOwner = .host → s.st.seqList[s.st.seqStep]? = some d →
    s.st.seqStep + 1 = s.st.seqList.length → good s d → decodeCmd s.st.cmd = .ok i →
    (∀ n, (i = .blockRead n ∨ ∃ a, i = .read n a) → n ≤ s.st.respWords.length →
      txEnd s = .next (completed 0 0 0 (withResults n (booked d s))))
    ∧ ((i = .loadConfig ∨ ∃ a, i = .write a ∨ i = .broadcast a) →
      txEnd s = .next (completed 0 0 0 (booked d s)))
    ∧ ∀ n, i = .cfgBlock n →
      txEnd s = .next (completed 0 0 0
        (let t := booked d s
         { t with st := { t.st with blkValid := true, blkCount := n } }))

/-- R122, R126–R131: a failing transaction, short of the third failure in a row, ends its host command with its own error,
at its own step, and no later descriptor is issued. -/
def Obligations.FailedTransactionEndsItsCommand : Prop :=
  ∀ (d : Descriptor) (s : State), s.st.seqOwner = .host → s.st.seqList[s.st.seqStep]? = some d →
    failing s.st.outcome → isBusWord s.st.cmd = true → s.st.failCount ≠ 2 →
    txEnd s = .next (failedCommand s (booked d s))

/-- R117, R168: the third failure in a row still completes its command, and then starts the recovery. -/
def Obligations.ThirdFailureStartsRecovery : Prop :=
  ∀ (d : Descriptor) (s : State), s.st.seqOwner = .host → s.st.seqList[s.st.seqStep]? = some d →
    failing s.st.outcome → isBusWord s.st.cmd = true → s.st.failCount = 2 →
    txEnd s = .next
      (let t := failedCommand s (booked d s)
       { t with
         rpe := { t.rpe with resetting := true, unhealthyEvt := true }
         st := { t.st with failCount := 0, recPhase := .preHigh, waitTicks := 0 } })

/-- R115, R120, R122: a good transaction end with descriptors left issues the next one in the same step, for the host and
for a recovery alike. -/
def Obligations.NextDescriptorIsIssued : Prop :=
  ∀ (d e : Descriptor) (s : State), s.st.seqList[s.st.seqStep]? = some d →
    s.st.seqList[s.st.seqStep + 1]? = some e → good s d →
    txEnd s = .next (transferred e
      (let t := booked d s
       { t with st := { t.st with seqStep := s.st.seqStep + 1 } }))

/-! ## Recovery -/

/-- R169: the four phases before RELOAD, each left by one engine step once its time is counted. -/
def Obligations.RecoveryPhasesFollow : Prop :=
  ∀ (txDone : Bool) (s : State), running s → s.st.engState = .idle → s.st.seqList[s.st.seqStep]? = none →
    (s.st.recPhase = .preHigh →
      agentStep (.engine txDone) s
        = .next (if reached s.st.waitTicks s.env.cfg.resetPreHighUs then
            { s with st := { s.st with lineLow := true, waitTicks := 0, recPhase := .low } } else s))
    ∧ (s.st.recPhase = .low →
      agentStep (.engine txDone) s
        = .next (if reached s.st.waitTicks s.env.cfg.resetLowUs then
            { s with st := { s.st with lineLow := false, waitTicks := 0, recPhase := .postWait } } else s))
    ∧ (s.st.recPhase = .postWait →
      agentStep (.engine txDone) s
        = .next (if reached s.st.waitTicks s.env.cfg.resetWaitUs then
            { s with st := { s.st with recPhase := .reinit } } else s))
    ∧ (s.st.recPhase = .reinit →
      agentStep (.engine txDone) s
        = .next (transferred ⟨.write, 0x00, s.host.cfgImage[0], .config⟩
            { s with
              rpe := { s.rpe with lastCksum := configCksum s.env.cfg s.host.cfgImage }
              st := { s.st with
                offsetMode := .unknown, blkValid := false, blkCount := 0, gapTicks := 0, rxFifo := []
                recPhase := .reload, seqOwner := .recovery, seqStep := 0
                seqList := lcList s.env.cfg s.host.uart s.host.cfgImage } }))

/-- R170, R117: the reload's last write or its first failure ends the recovery; the host command's error, DONE and the
failure counter stay. -/
def Obligations.RecoveryEnds : Prop :=
  ∀ (d : Descriptor) (s : State), s.st.seqOwner = .recovery → s.st.seqList[s.st.seqStep]? = some d →
    let settled := fun t : State => { t with st := { t.st with
      recPhase := .none, seqOwner := .none, seqList := [], seqStep := 0 } }
    (s.st.seqStep + 1 = s.st.seqList.length → good s d →
      txEnd s = .next (settled
        (let t := booked d s
         { t with rpe := { t.rpe with resetting := false, recCause := 0, recovered := true } })))
    ∧ (failing s.st.outcome →
      txEnd s = .next (settled
        (let t := booked d s
         { t with rpe := { t.rpe with
            resetting := false, recCause := BitVec.ofNat 4 (errorOf s.st.outcome), recoveryFailed := true } })))

/-- R171, R168: no host access starts, stops or shortens a recovery, moves the reset line or the failure counter, or writes
REC_CAUSE; while Resetting none touches the sequence that reloads the configuration or its transaction in progress. -/
def Obligations.HostCannotTouchARecovery : Prop :=
  ∀ (e : Event) (s t : State), running s →
    (∃ off size, e = .hostRead off size) ∨ (∃ off size w, e = .hostWrite off size w) → agentStep e s = .next t →
    t.rpe.resetting = s.rpe.resetting ∧ t.st.recPhase = s.st.recPhase ∧ t.st.lineLow = s.st.lineLow
      ∧ t.st.waitTicks = s.st.waitTicks ∧ t.st.failCount = s.st.failCount ∧ t.rpe.recCause = s.rpe.recCause
      ∧ t.st.rxFifo = s.st.rxFifo ∧ t.st.gapTicks = s.st.gapTicks ∧ t.st.offsetMode = s.st.offsetMode
      ∧ (s.rpe.resetting = true →
        t.st.seqOwner = s.st.seqOwner ∧ t.st.seqList = s.st.seqList ∧ t.st.seqStep = s.st.seqStep
          ∧ t.st.engState = s.st.engState ∧ t.st.txFrame = s.st.txFrame ∧ t.st.txIdx = s.st.txIdx
          ∧ t.st.expN = s.st.expN)

/-! ## The configuration sequence -/

/-- R133: (sum + ck) mod 2^32 = 0xFFFFFFFF, the sum being that of the thirty words that LOAD_CONFIG writes ahead of the
checksum, for every image and every mirror list, the two edge images included. -/
def Obligations.ConfigChecksumCompletesTheSum : Prop :=
  (∀ (c : Params) (uart : Bool) (img : Vector Word 30),
    ((((lcList c uart img).take 30).map (fun d => d.v.toNat)).sum + (configCksum c img).toNat) % 2 ^ 32 = 0xFFFFFFFF)
  ∧ ∀ c : Params, configCksum c (Vector.replicate 30 0) = 0xFFFFFFFF
    ∧ configCksum c (Vector.replicate 30 0xFFFFFFFF) = 0x0000001D

/-- R132: the list of LOAD_CONFIG entry by entry; in UART all its addresses have seven bits (R7). That UART and SPI may have
post-checksum writes of their own is the model's choice (log 16). -/
def Obligations.ConfigListOrder : Prop :=
  ∀ (c : Params) (uart : Bool) (img : Vector Word 30),
    let post := if uart then c.postCksumWritesUart else c.postCksumWrites
    (lcList c uart img).length = 31 + post.length ∧ (lcList c uart img).length ≤ 39
    ∧ (∀ i : Fin 30, i.val < 8 → (lcList c uart img)[i.val]? = some ⟨.write, BitVec.ofNat 8 i.val, img[i], .config⟩)
    ∧ (∀ i : Fin 30, 8 ≤ i.val → (∀ p ∈ c.mirrorPairs, p.2.toNat ≠ 0x25 + (i.val - 8)) →
        (lcList c uart img)[i.val]? = some ⟨.write, BitVec.ofNat 8 (0x25 + (i.val - 8)), img[i], .config⟩)
    ∧ (∀ i k : Fin 30, 8 ≤ i.val → 8 ≤ k.val →
        (BitVec.ofNat 8 (0x25 + (k.val - 8)), BitVec.ofNat 8 (0x25 + (i.val - 8))) ∈ c.mirrorPairs →
        (lcList c uart img)[i.val]? = some ⟨.write, BitVec.ofNat 8 (0x25 + (i.val - 8)), img[k], .config⟩)
    ∧ (lcList c uart img)[30]? = some ⟨.write, c.opn.addrDspCfgCksum, configCksum c img, .config⟩
    ∧ (∀ (j : Nat) (p : Byte × Word), post[j]? = some p →
        (lcList c uart img)[31 + j]? = some ⟨.write, p.1, p.2, .config⟩)
    ∧ (uart = true → ∀ d ∈ lcList c uart img, d.a.toNat ≤ 0x7F)

/-- R103–R106: doubling BAUD halves the timeout within rounding; the turnaround's and the timeout's thresholds fit under
2^32 − 1, and so do the others where the times that R7 bounds from below alone leave room, so that a saturated counter has
reached them. -/
def Obligations.TimingScalesWithBaud : Prop :=
  (∀ (c : Params) (h : HostRegs) (n b : Nat), 1 ≤ b → 2 * b < 2 ^ 32 →
    timeoutUs c { h with baud := BitVec.ofNat 32 (2 * b) } n
      = ceil (timeoutUs c { h with baud := BitVec.ofNat 32 b } n) 2)
  ∧ ∀ (c : Params) (h : HostRegs) (n : Nat), c.bpbUart ≤ 11 → c.bpbSpi ≤ 11 → n ≤ 65 → h.baud ≠ 0 →
    ticks (timeoutUs c h n) < 2 ^ 32 - 1 ∧ ticks (turnaroundUs c h.baud) < 2 ^ 32 - 1
    ∧ ((∀ us ∈ fixedTimes c, us < 2 ^ 32 - 2) →
      ticks (guardUs c h) < 2 ^ 32 - 1 ∧ ∀ us ∈ fixedTimes c, ticks us < 2 ^ 32 - 1)

/-! ## Rules of the whole machine -/

/-- R21, R38, R43: once STATUS.LOCK is set, DEVCFG, BAUD and the lock itself stay until block reset, and no step ever changes
the parameters. -/
def Obligations.LockedConfigurationStays : Prop :=
  ∀ (e : Event) (s t : State), agentStep e s = .next t →
    t.env.cfg = s.env.cfg
    ∧ (running s → e ≠ .rst true → s.rpe.lock = true →
      t.rpe.lock = true ∧ t.host.devAddr = s.host.devAddr ∧ t.host.wireMode = s.host.wireMode
        ∧ t.host.baud = s.host.baud)

/-- R68: no operand of a running command changes, and the image stays while BUSY or Resetting. -/
def Obligations.OperandsStayWhileTheyAreUsed : Prop :=
  ∀ (e : Event) (s t : State), running s → e ≠ .rst true → agentStep e s = .next t →
    (s.st.seqOwner = .host →
      t.host.data = s.host.data ∧ t.host.calcfg = s.host.calcfg ∧ t.host.blkList = s.host.blkList
      ∧ (∀ f : Factor, factorRead t.host f = factorRead s.host f))
    ∧ (s.st.seqOwner = .host ∨ s.rpe.resetting = true → t.host.cfgImage = s.host.cfgImage)

/-- R31–R34, R145: outside block reset, `st.creep_a` changes only by a CALRMS P, `st.creep_b` only by a CALRMS PB, CAL_OUT
and CAL_FLAGS only by a pipeline command, and RESULT only by the engine step that completes a READ or BLOCK_READ of the
host. -/
def Obligations.ResultsChangeOnlyByTheirCommands : Prop :=
  ∀ (e : Event) (s t : State), running s → e ≠ .rst true → agentStep e s = .next t →
    (t.st.creepA ≠ s.st.creepA →
      ∃ w dir, e = .hostWrite 0x00C 4 w ∧ decodeCmd w = .ok (.calrmsP dir) ∧ s.st.seqOwner ≠ .host)
    ∧ (t.st.creepB ≠ s.st.creepB →
      ∃ w dir, e = .hostWrite 0x00C 4 w ∧ decodeCmd w = .ok (.calrmsPb dir) ∧ s.st.seqOwner ≠ .host)
    ∧ ((t.rpe.calOut ≠ s.rpe.calOut ∨ t.rpe.calFlags ≠ s.rpe.calFlags) →
      ∃ w, e = .hostWrite 0x00C 4 w ∧ wellFormedWord w ∧ (w.toNat % 16 = 7 ∨ w.toNat % 16 = 8)
        ∧ s.st.seqOwner ≠ .host)
    ∧ (t.rpe.result ≠ s.rpe.result →
      (∃ txDone, e = .engine txDone) ∧ s.st.seqOwner = .host
        ∧ ∃ n, decodeCmd s.st.cmd = .ok (.blockRead n) ∨ ∃ a, decodeCmd s.st.cmd = .ok (.read n a))

/-- R66, R167: outside block reset a command leaves BUSY only by an engine step that sets DONE, as long as no recovery phase
is open. -/
def Obligations.BusyEndsWithDone : Prop :=
  ∀ (e : Event) (s t : State), running s → e ≠ .rst true → s.st.recPhase = .none → s.st.seqOwner = .host →
    agentStep e s = .next t → t.st.seqOwner ≠ .host →
    (∃ txDone, e = .engine txDone) ∧ t.rpe.done = true ∧ t.st.seqOwner = .none ∧ t.st.seqList = []

/-- R107, R112, R169, R172, R174: the outputs; `irq` from the bits of STATUS and IE that a host reads; the seven bits of
`rx_expect` hold the expected length in every state that meets the invariant. `tx_valid` and `tx_byte` stand in
ChannelBytes. -/
def Obligations.PortsFollowTheState : Prop :=
  ∀ s : State,
    let status := readAt s 0x014
    let ie := readAt s 0x01C
    (ports s).irq
      = ((status.getLsbD 1 && ie.getLsbD 0) || (status.getLsbD 3 && ie.getLsbD 1)
        || ((status.getLsbD 4 || status.getLsbD 5) && ie.getLsbD 2))
    ∧ (ports s).unhealthy = s.rpe.resetting ∧ (ports s).baud = s.host.baud ∧ (ports s).lineForceLow = s.st.lineLow
    ∧ ((ports s).chReinit = true ↔ s.st.recPhase = .reinit)
    ∧ ((ports s).csActive = true ↔
        s.host.wireMode = .spi3
        ∨ (s.host.wireMode = .spi4 ∧ s.st.engState ≠ .idle ∧ s.st.engState ≠ .guard))
    ∧ (ports s).wireMode = (match s.host.wireMode with | .uart => 0 | .spi4 => 1 | .spi3 => 2)
    ∧ (ports s).rxExpect = (if s.st.engState = .awaiting then BitVec.ofNat 7 s.st.expN else 0)
    ∧ (Inv s → (ports s).rxExpect.toNat = if s.st.engState = .awaiting then s.st.expN else 0)

/-! ## Invariants -/

/-- The invariant and the bound of the sequence hold right after reset, whatever values the OPEN parameters have. -/
def Obligations.InvariantHoldsAtReset : Prop := Inv State.reset ∧ sequenceBounded State.reset

/-- Every step from a state that meets the invariant gives a state that meets it. -/
def Obligations.EveryStepKeepsTheInvariant : Prop := ∀ s t : State, Inv s → step s = .next t → Inv t

/-- R110, R122, R161: in a state that meets the invariant no agent's step faults or refuses, whatever the agent: not with the
model's own fault for a stray transaction end (log 6), and not at a bad host access, whose error response is a next state by
the model's choice (log 4). -/
def Obligations.InvariantStatesAlwaysRun : Prop := ∀ (e : Event) (s : State), Inv s → Runs (agentStep e s)

/-- R18, R40, R132: the running sequence and the switches it may still insert stay within 48 descriptors. -/
def Obligations.SequencesStayBounded : Prop :=
  ∀ s t : State, Inv s → sequenceBounded s → step s = .next t → sequenceBounded t ∧ t.st.seqList.length ≤ 48

/-! ## The step -/

/-- A step runs the decoded instruction. Where the host's write to CMD comes next, the step is `exec` of the word's command
after the access is taken off the list and acknowledged (R164). The Xfer of a descriptor, which a sequence's start and each
transaction end make in the same step (ReadStartsItsTransaction, NextDescriptorIsIssued), is `exec` of the wire instruction
that the frame it issues decodes to, after the sequencer's own part of it (R120). That an engine step in IDLE makes the Xfer
of a descriptor it finds waiting, in states that the invariant rules out, is the model's choice (log 7). -/
def Obligations.StepRunsTheInstruction : Prop :=
  (∀ (w : Word) (i : Instr) (s : State), running s → nextEvent s = .hostWrite 0x00C 4 w → decodeCmd w = .ok i →
    step s = exec i (answered .ack (consumeEvent s)))
  ∧ (∀ (d : Descriptor) (i : Instr) (s : State), s.st.engState = .idle → currentDescriptor s = some d →
    descriptorOk d = true →
    decodeFrame s.host.uart (frame s (if mustSwitch s d then switchFor s d else d)) = .ok i →
    exec i (prepareXfer d s) = .next (transferred d s))
  ∧ ∀ (d : Descriptor) (i : Instr) (txDone : Bool) (s : State), running s → nextEvent s = .engine txDone →
    s.st.engState = .idle → currentDescriptor s = some d → descriptorOk d = true →
    decodeFrame s.host.uart (frameOf s.host.uart s.host.devAddr (issuedFor s d)) = .ok i →
    step s = exec i (prepareXfer d (consumeEvent s))
end

