-- ==== Sys2Proof/Laws/Decode.lean ====
section
/-! SUPPORT. The fields of a command word and of CMD1 read back from the word they are put into. -/
namespace Sys2Proof
/-- Every bit of a command word (R80). -/
theorem cmdWord_getLsbD (op nm1 : BitVec 4) (arg8 : Byte) (dir : Bool) (i : Nat) :
    (cmdWord op nm1 arg8 dir).getLsbD i
      = if i < 4 then op.getLsbD i
        else if i < 8 then nm1.getLsbD (i - 4)
        else if i < 16 then arg8.getLsbD (i - 8)
        else (decide (i = 16) && dir) := by
  have h : (cmdWord op nm1 arg8 dir).getLsbD i
      = BitVec.getLsbD (w := 15 + 1 + 8 + 4 + 4) ((0 : BitVec 15) ++ BitVec.ofBool dir ++ arg8 ++ nm1 ++ op) i := rfl
  rw [h]
  simp only [BitVec.getLsbD_append, BitVec.getLsbD_ofBool, BitVec.ofNat_eq_ofNat, BitVec.getLsbD_zero]
  by_cases h4 : i < 4
  · simp [h4]
  by_cases h8 : i < 8
  · simp [h4, h8, show i - 4 < 4 by omega]
  by_cases h16 : i < 16
  · simp [h4, h8, h16, show ¬ i - 4 < 4 by omega, show i - 4 - 4 = i - 8 by omega, show i - 8 < 8 by omega]
  by_cases h17 : i = 16
  · subst h17; simp
  · simp [h4, h8, h16, h17, show ¬ i - 4 < 4 by omega, show ¬ i - 4 - 4 < 8 by omega,
      show ¬ i - 4 - 4 - 8 < 1 by omega]

/-- The fields of a command word (R80). -/
theorem cmdWord_fields (op nm1 : BitVec 4) (arg8 : Byte) (dir : Bool) :
    cmdReserved (cmdWord op nm1 arg8 dir) = 0 ∧ cmdOp (cmdWord op nm1 arg8 dir) = op
    ∧ cmdNm1 (cmdWord op nm1 arg8 dir) = nm1 ∧ cmdArg8 (cmdWord op nm1 arg8 dir) = arg8
    ∧ cmdDir (cmdWord op nm1 arg8 dir) = dir := by
  refine ⟨?_, ?_, ?_, ?_, ?_⟩
  all_goals simp only [cmdReserved, cmdOp, cmdNm1, cmdArg8, cmdDir]
  any_goals (ext i hi; rw [BitVec.getElem_extractLsb', cmdWord_getLsbD])
  · rw [if_neg (by omega), if_neg (by omega), if_neg (by omega)]; simp; omega
  · simp [hi]
  · rw [if_neg (by omega), if_pos (by omega)]; simp [hi]
  · rw [if_neg (by omega), if_neg (by omega), if_pos (by omega)]; simp [hi]
  · rw [cmdWord_getLsbD]; simp
/-- The fields of CMD1 (R73). -/
theorem cmd1_fields : ∀ (nm1 : BitVec 4) (dev op : BitVec 2),
    cmd1Nm1 (cmd1 nm1 dev op) = nm1 ∧ cmd1Dev (cmd1 nm1 dev op) = dev ∧ cmd1Op (cmd1 nm1 dev op) = op := by
  decide

/-- A count and its NM1 field (R73, R80). -/
theorem countOf_nm1Of {n : Nat} (h : countOk n = true) : countOf (nm1Of n) = n := by
  obtain ⟨h1, h2⟩ : 1 ≤ n ∧ n ≤ 16 := (by simpa [countOk] using h : 1 ≤ n ∧ n ≤ Config.blockMax)
  have : (n - 1) % 2 ^ 4 = n - 1 := Nat.mod_eq_of_lt (by omega)
  simp only [countOf, nm1Of, BitVec.toNat_ofNat]; omega

/-- `le32` undoes `bytes_le` (R13). -/
theorem le32_bytesLe (v : Word) :
    le32 (v.extractLsb' 0 8) (v.extractLsb' 8 8) (v.extractLsb' 16 8) (v.extractLsb' 24 8) = v := by
  apply BitVec.eq_of_getLsbD_eq
  intro i hi
  have h : (le32 (v.extractLsb' 0 8) (v.extractLsb' 8 8) (v.extractLsb' 16 8) (v.extractLsb' 24 8)).getLsbD i
      = BitVec.getLsbD (w := 8 + 8 + 8 + 8) (v.extractLsb' 24 8 ++ v.extractLsb' 16 8 ++ v.extractLsb' 8 8
          ++ v.extractLsb' 0 8) i := rfl
  rw [h]
  simp only [BitVec.getLsbD_append, BitVec.getLsbD_extractLsb']
  by_cases h8 : i < 8
  · simp [h8]
  by_cases h16 : i < 16
  · rw [if_neg h8, if_pos (by omega)]
    simp [show i - 8 < 8 by omega, show 8 + (i - 8) = i by omega]
  by_cases h24 : i < 24
  · rw [if_neg h8, if_neg (by omega), if_pos (by omega)]
    simp [show i - 8 - 8 < 8 by omega, show 16 + (i - 8 - 8) = i by omega]
  · rw [if_neg h8, if_neg (by omega), if_neg (by omega)]
    simp [show i - 8 - 8 - 8 < 8 by omega, show 24 + (i - 8 - 8 - 8) = i by omega]

end Sys2Proof
end

