-- ==== Sys2Proof/Laws/State.lean ====
section
/-! SUPPORT. One lemma per field (or per untouched group of fields) for each named update of State, true by rfl. -/

namespace Sys2Proof.Machine

/-! ### `finish` -/

@[simp] theorem finish_host (code cause : BitVec 4) (step : Nat) (s : State) : (finish code cause step s).host = s.host := rfl
@[simp] theorem finish_rpe_done (code cause : BitVec 4) (step : Nat) (s : State) : (finish code cause step s).rpe.done = true := rfl
@[simp] theorem finish_rpe_resetting (code cause : BitVec 4) (step : Nat) (s : State) : (finish code cause step s).rpe.resetting = s.rpe.resetting := rfl
@[simp] theorem finish_rpe_unhealthyEvt (code cause : BitVec 4) (step : Nat) (s : State) : (finish code cause step s).rpe.unhealthyEvt = s.rpe.unhealthyEvt := rfl
@[simp] theorem finish_rpe_recovered (code cause : BitVec 4) (step : Nat) (s : State) : (finish code cause step s).rpe.recovered = s.rpe.recovered := rfl
@[simp] theorem finish_rpe_recoveryFailed (code cause : BitVec 4) (step : Nat) (s : State) : (finish code cause step s).rpe.recoveryFailed = s.rpe.recoveryFailed := rfl
@[simp] theorem finish_rpe_cmdOverrun (code cause : BitVec 4) (step : Nat) (s : State) : (finish code cause step s).rpe.cmdOverrun = s.rpe.cmdOverrun := rfl
@[simp] theorem finish_rpe_wrLocked (code cause : BitVec 4) (step : Nat) (s : State) : (finish code cause step s).rpe.wrLocked = s.rpe.wrLocked := rfl
@[simp] theorem finish_rpe_rxOverflow (code cause : BitVec 4) (step : Nat) (s : State) : (finish code cause step s).rpe.rxOverflow = s.rpe.rxOverflow := rfl
@[simp] theorem finish_rpe_lock (code cause : BitVec 4) (step : Nat) (s : State) : (finish code cause step s).rpe.lock = s.rpe.lock := rfl
@[simp] theorem finish_rpe_errCode (code cause : BitVec 4) (step : Nat) (s : State) : (finish code cause step s).rpe.errCode = code := rfl
@[simp] theorem finish_rpe_errCause (code cause : BitVec 4) (step : Nat) (s : State) : (finish code cause step s).rpe.errCause = cause := rfl
@[simp] theorem finish_rpe_errStep (code cause : BitVec 4) (step : Nat) (s : State) : (finish code cause step s).rpe.errStep = BitVec.ofNat 8 step := rfl
@[simp] theorem finish_rpe_recCause (code cause : BitVec 4) (step : Nat) (s : State) : (finish code cause step s).rpe.recCause = s.rpe.recCause := rfl
@[simp] theorem finish_rpe_cksumErrCnt (code cause : BitVec 4) (step : Nat) (s : State) : (finish code cause step s).rpe.cksumErrCnt = s.rpe.cksumErrCnt := rfl
@[simp] theorem finish_rpe_timeoutCnt (code cause : BitVec 4) (step : Nat) (s : State) : (finish code cause step s).rpe.timeoutCnt = s.rpe.timeoutCnt := rfl
@[simp] theorem finish_rpe_calOut (code cause : BitVec 4) (step : Nat) (s : State) : (finish code cause step s).rpe.calOut = s.rpe.calOut := rfl
@[simp] theorem finish_rpe_calFlags (code cause : BitVec 4) (step : Nat) (s : State) : (finish code cause step s).rpe.calFlags = s.rpe.calFlags := rfl
@[simp] theorem finish_rpe_lastCksum (code cause : BitVec 4) (step : Nat) (s : State) : (finish code cause step s).rpe.lastCksum = s.rpe.lastCksum := rfl
@[simp] theorem finish_rpe_result (code cause : BitVec 4) (step : Nat) (s : State) : (finish code cause step s).rpe.result = s.rpe.result := rfl
@[simp] theorem finish_st_cmd (code cause : BitVec 4) (step : Nat) (s : State) : (finish code cause step s).st.cmd = s.st.cmd := rfl
@[simp] theorem finish_st_seqList (code cause : BitVec 4) (step : Nat) (s : State) :
    (finish code cause step s).st.seqList = if s.busy then [] else s.st.seqList := rfl
@[simp] theorem finish_st_seqStep (code cause : BitVec 4) (step : Nat) (s : State) :
    (finish code cause step s).st.seqStep = if s.busy then 0 else s.st.seqStep := rfl
@[simp] theorem finish_st_seqOwner (code cause : BitVec 4) (step : Nat) (s : State) :
    (finish code cause step s).st.seqOwner = if s.busy then .none else s.st.seqOwner := rfl
@[simp] theorem finish_st_engState (code cause : BitVec 4) (step : Nat) (s : State) : (finish code cause step s).st.engState = s.st.engState := rfl
@[simp] theorem finish_st_txFrame (code cause : BitVec 4) (step : Nat) (s : State) : (finish code cause step s).st.txFrame = s.st.txFrame := rfl
@[simp] theorem finish_st_txIdx (code cause : BitVec 4) (step : Nat) (s : State) : (finish code cause step s).st.txIdx = s.st.txIdx := rfl
@[simp] theorem finish_st_expN (code cause : BitVec 4) (step : Nat) (s : State) : (finish code cause step s).st.expN = s.st.expN := rfl
@[simp] theorem finish_st_waitTicks (code cause : BitVec 4) (step : Nat) (s : State) : (finish code cause step s).st.waitTicks = s.st.waitTicks := rfl
@[simp] theorem finish_st_gapTicks (code cause : BitVec 4) (step : Nat) (s : State) : (finish code cause step s).st.gapTicks = s.st.gapTicks := rfl
@[simp] theorem finish_st_rxFifo (code cause : BitVec 4) (step : Nat) (s : State) : (finish code cause step s).st.rxFifo = s.st.rxFifo := rfl
@[simp] theorem finish_st_outcome (code cause : BitVec 4) (step : Nat) (s : State) : (finish code cause step s).st.outcome = s.st.outcome := rfl
@[simp] theorem finish_st_respWords (code cause : BitVec 4) (step : Nat) (s : State) : (finish code cause step s).st.respWords = s.st.respWords := rfl
@[simp] theorem finish_st_failCount (code cause : BitVec 4) (step : Nat) (s : State) : (finish code cause step s).st.failCount = s.st.failCount := rfl
@[simp] theorem finish_st_offsetMode (code cause : BitVec 4) (step : Nat) (s : State) : (finish code cause step s).st.offsetMode = s.st.offsetMode := rfl
@[simp] theorem finish_st_blkValid (code cause : BitVec 4) (step : Nat) (s : State) : (finish code cause step s).st.blkValid = s.st.blkValid := rfl
@[simp] theorem finish_st_blkCount (code cause : BitVec 4) (step : Nat) (s : State) : (finish code cause step s).st.blkCount = s.st.blkCount := rfl
@[simp] theorem finish_st_recPhase (code cause : BitVec 4) (step : Nat) (s : State) : (finish code cause step s).st.recPhase = s.st.recPhase := rfl
@[simp] theorem finish_st_creepA (code cause : BitVec 4) (step : Nat) (s : State) : (finish code cause step s).st.creepA = s.st.creepA := rfl
@[simp] theorem finish_st_creepB (code cause : BitVec 4) (step : Nat) (s : State) : (finish code cause step s).st.creepB = s.st.creepB := rfl
@[simp] theorem finish_st_lineLow (code cause : BitVec 4) (step : Nat) (s : State) : (finish code cause step s).st.lineLow = s.st.lineLow := rfl
@[simp] theorem finish_env (code cause : BitVec 4) (step : Nat) (s : State) : (finish code cause step s).env = s.env := rfl

/-! ### `overrun` -/

@[simp] theorem overrun_host (s : State) : (overrun s).host = s.host := rfl
@[simp] theorem overrun_rpe_done (s : State) : (overrun s).rpe.done = s.rpe.done := rfl
@[simp] theorem overrun_rpe_resetting (s : State) : (overrun s).rpe.resetting = s.rpe.resetting := rfl
@[simp] theorem overrun_rpe_unhealthyEvt (s : State) : (overrun s).rpe.unhealthyEvt = s.rpe.unhealthyEvt := rfl
@[simp] theorem overrun_rpe_recovered (s : State) : (overrun s).rpe.recovered = s.rpe.recovered := rfl
@[simp] theorem overrun_rpe_recoveryFailed (s : State) : (overrun s).rpe.recoveryFailed = s.rpe.recoveryFailed := rfl
@[simp] theorem overrun_rpe_cmdOverrun (s : State) : (overrun s).rpe.cmdOverrun = true := rfl
@[simp] theorem overrun_rpe_wrLocked (s : State) : (overrun s).rpe.wrLocked = s.rpe.wrLocked := rfl
@[simp] theorem overrun_rpe_rxOverflow (s : State) : (overrun s).rpe.rxOverflow = s.rpe.rxOverflow := rfl
@[simp] theorem overrun_rpe_lock (s : State) : (overrun s).rpe.lock = s.rpe.lock := rfl
@[simp] theorem overrun_rpe_errCode (s : State) : (overrun s).rpe.errCode = s.rpe.errCode := rfl
@[simp] theorem overrun_rpe_errCause (s : State) : (overrun s).rpe.errCause = s.rpe.errCause := rfl
@[simp] theorem overrun_rpe_errStep (s : State) : (overrun s).rpe.errStep = s.rpe.errStep := rfl
@[simp] theorem overrun_rpe_recCause (s : State) : (overrun s).rpe.recCause = s.rpe.recCause := rfl
@[simp] theorem overrun_rpe_cksumErrCnt (s : State) : (overrun s).rpe.cksumErrCnt = s.rpe.cksumErrCnt := rfl
@[simp] theorem overrun_rpe_timeoutCnt (s : State) : (overrun s).rpe.timeoutCnt = s.rpe.timeoutCnt := rfl
@[simp] theorem overrun_rpe_calOut (s : State) : (overrun s).rpe.calOut = s.rpe.calOut := rfl
@[simp] theorem overrun_rpe_calFlags (s : State) : (overrun s).rpe.calFlags = s.rpe.calFlags := rfl
@[simp] theorem overrun_rpe_lastCksum (s : State) : (overrun s).rpe.lastCksum = s.rpe.lastCksum := rfl
@[simp] theorem overrun_rpe_result (s : State) : (overrun s).rpe.result = s.rpe.result := rfl
@[simp] theorem overrun_st (s : State) : (overrun s).st = s.st := rfl
@[simp] theorem overrun_env (s : State) : (overrun s).env = s.env := rfl

/-! ### `latchCommand` -/

@[simp] theorem latchCommand_host (w : Word) (s : State) : (latchCommand w s).host = s.host := rfl
@[simp] theorem latchCommand_rpe_done (w : Word) (s : State) : (latchCommand w s).rpe.done = false := rfl
@[simp] theorem latchCommand_rpe_resetting (w : Word) (s : State) : (latchCommand w s).rpe.resetting = s.rpe.resetting := rfl
@[simp] theorem latchCommand_rpe_unhealthyEvt (w : Word) (s : State) : (latchCommand w s).rpe.unhealthyEvt = s.rpe.unhealthyEvt := rfl
@[simp] theorem latchCommand_rpe_recovered (w : Word) (s : State) : (latchCommand w s).rpe.recovered = s.rpe.recovered := rfl
@[simp] theorem latchCommand_rpe_recoveryFailed (w : Word) (s : State) : (latchCommand w s).rpe.recoveryFailed = s.rpe.recoveryFailed := rfl
@[simp] theorem latchCommand_rpe_cmdOverrun (w : Word) (s : State) : (latchCommand w s).rpe.cmdOverrun = s.rpe.cmdOverrun := rfl
@[simp] theorem latchCommand_rpe_wrLocked (w : Word) (s : State) : (latchCommand w s).rpe.wrLocked = s.rpe.wrLocked := rfl
@[simp] theorem latchCommand_rpe_rxOverflow (w : Word) (s : State) : (latchCommand w s).rpe.rxOverflow = s.rpe.rxOverflow := rfl
@[simp] theorem latchCommand_rpe_lock (w : Word) (s : State) : (latchCommand w s).rpe.lock = s.rpe.lock := rfl
@[simp] theorem latchCommand_rpe_errCode (w : Word) (s : State) : (latchCommand w s).rpe.errCode = s.rpe.errCode := rfl
@[simp] theorem latchCommand_rpe_errCause (w : Word) (s : State) : (latchCommand w s).rpe.errCause = s.rpe.errCause := rfl
@[simp] theorem latchCommand_rpe_errStep (w : Word) (s : State) : (latchCommand w s).rpe.errStep = s.rpe.errStep := rfl
@[simp] theorem latchCommand_rpe_recCause (w : Word) (s : State) : (latchCommand w s).rpe.recCause = s.rpe.recCause := rfl
@[simp] theorem latchCommand_rpe_cksumErrCnt (w : Word) (s : State) : (latchCommand w s).rpe.cksumErrCnt = s.rpe.cksumErrCnt := rfl
@[simp] theorem latchCommand_rpe_timeoutCnt (w : Word) (s : State) : (latchCommand w s).rpe.timeoutCnt = s.rpe.timeoutCnt := rfl
@[simp] theorem latchCommand_rpe_calOut (w : Word) (s : State) : (latchCommand w s).rpe.calOut = s.rpe.calOut := rfl
@[simp] theorem latchCommand_rpe_calFlags (w : Word) (s : State) : (latchCommand w s).rpe.calFlags = s.rpe.calFlags := rfl
@[simp] theorem latchCommand_rpe_lastCksum (w : Word) (s : State) : (latchCommand w s).rpe.lastCksum = s.rpe.lastCksum := rfl
@[simp] theorem latchCommand_rpe_result (w : Word) (s : State) : (latchCommand w s).rpe.result = s.rpe.result := rfl
@[simp] theorem latchCommand_st_cmd (w : Word) (s : State) : (latchCommand w s).st.cmd = w := rfl
@[simp] theorem latchCommand_st_seqList (w : Word) (s : State) : (latchCommand w s).st.seqList = s.st.seqList := rfl
@[simp] theorem latchCommand_st_seqStep (w : Word) (s : State) : (latchCommand w s).st.seqStep = s.st.seqStep := rfl
@[simp] theorem latchCommand_st_seqOwner (w : Word) (s : State) : (latchCommand w s).st.seqOwner = s.st.seqOwner := rfl
@[simp] theorem latchCommand_st_engState (w : Word) (s : State) : (latchCommand w s).st.engState = s.st.engState := rfl
@[simp] theorem latchCommand_st_txFrame (w : Word) (s : State) : (latchCommand w s).st.txFrame = s.st.txFrame := rfl
@[simp] theorem latchCommand_st_txIdx (w : Word) (s : State) : (latchCommand w s).st.txIdx = s.st.txIdx := rfl
@[simp] theorem latchCommand_st_expN (w : Word) (s : State) : (latchCommand w s).st.expN = s.st.expN := rfl
@[simp] theorem latchCommand_st_waitTicks (w : Word) (s : State) : (latchCommand w s).st.waitTicks = s.st.waitTicks := rfl
@[simp] theorem latchCommand_st_gapTicks (w : Word) (s : State) : (latchCommand w s).st.gapTicks = s.st.gapTicks := rfl
@[simp] theorem latchCommand_st_rxFifo (w : Word) (s : State) : (latchCommand w s).st.rxFifo = s.st.rxFifo := rfl
@[simp] theorem latchCommand_st_outcome (w : Word) (s : State) : (latchCommand w s).st.outcome = s.st.outcome := rfl
@[simp] theorem latchCommand_st_respWords (w : Word) (s : State) : (latchCommand w s).st.respWords = s.st.respWords := rfl
@[simp] theorem latchCommand_st_failCount (w : Word) (s : State) : (latchCommand w s).st.failCount = s.st.failCount := rfl
@[simp] theorem latchCommand_st_offsetMode (w : Word) (s : State) : (latchCommand w s).st.offsetMode = s.st.offsetMode := rfl
@[simp] theorem latchCommand_st_blkValid (w : Word) (s : State) : (latchCommand w s).st.blkValid = s.st.blkValid := rfl
@[simp] theorem latchCommand_st_blkCount (w : Word) (s : State) : (latchCommand w s).st.blkCount = s.st.blkCount := rfl
@[simp] theorem latchCommand_st_recPhase (w : Word) (s : State) : (latchCommand w s).st.recPhase = s.st.recPhase := rfl
@[simp] theorem latchCommand_st_creepA (w : Word) (s : State) : (latchCommand w s).st.creepA = s.st.creepA := rfl
@[simp] theorem latchCommand_st_creepB (w : Word) (s : State) : (latchCommand w s).st.creepB = s.st.creepB := rfl
@[simp] theorem latchCommand_st_lineLow (w : Word) (s : State) : (latchCommand w s).st.lineLow = s.st.lineLow := rfl
@[simp] theorem latchCommand_env (w : Word) (s : State) : (latchCommand w s).env = s.env := rfl

/-! ### `clearHandle` -/

@[simp] theorem clearHandle_host (s : State) : (clearHandle s).host = s.host := rfl
@[simp] theorem clearHandle_rpe (s : State) : (clearHandle s).rpe = s.rpe := rfl
@[simp] theorem clearHandle_st_cmd (s : State) : (clearHandle s).st.cmd = s.st.cmd := rfl
@[simp] theorem clearHandle_st_seqList (s : State) : (clearHandle s).st.seqList = s.st.seqList := rfl
@[simp] theorem clearHandle_st_seqStep (s : State) : (clearHandle s).st.seqStep = s.st.seqStep := rfl
@[simp] theorem clearHandle_st_seqOwner (s : State) : (clearHandle s).st.seqOwner = s.st.seqOwner := rfl
@[simp] theorem clearHandle_st_engState (s : State) : (clearHandle s).st.engState = s.st.engState := rfl
@[simp] theorem clearHandle_st_txFrame (s : State) : (clearHandle s).st.txFrame = s.st.txFrame := rfl
@[simp] theorem clearHandle_st_txIdx (s : State) : (clearHandle s).st.txIdx = s.st.txIdx := rfl
@[simp] theorem clearHandle_st_expN (s : State) : (clearHandle s).st.expN = s.st.expN := rfl
@[simp] theorem clearHandle_st_waitTicks (s : State) : (clearHandle s).st.waitTicks = s.st.waitTicks := rfl
@[simp] theorem clearHandle_st_gapTicks (s : State) : (clearHandle s).st.gapTicks = s.st.gapTicks := rfl
@[simp] theorem clearHandle_st_rxFifo (s : State) : (clearHandle s).st.rxFifo = s.st.rxFifo := rfl
@[simp] theorem clearHandle_st_outcome (s : State) : (clearHandle s).st.outcome = s.st.outcome := rfl
@[simp] theorem clearHandle_st_respWords (s : State) : (clearHandle s).st.respWords = s.st.respWords := rfl
@[simp] theorem clearHandle_st_failCount (s : State) : (clearHandle s).st.failCount = s.st.failCount := rfl
@[simp] theorem clearHandle_st_offsetMode (s : State) : (clearHandle s).st.offsetMode = s.st.offsetMode := rfl
@[simp] theorem clearHandle_st_blkValid (s : State) : (clearHandle s).st.blkValid = false := rfl
@[simp] theorem clearHandle_st_blkCount (s : State) : (clearHandle s).st.blkCount = 0 := rfl
@[simp] theorem clearHandle_st_recPhase (s : State) : (clearHandle s).st.recPhase = s.st.recPhase := rfl
@[simp] theorem clearHandle_st_creepA (s : State) : (clearHandle s).st.creepA = s.st.creepA := rfl
@[simp] theorem clearHandle_st_creepB (s : State) : (clearHandle s).st.creepB = s.st.creepB := rfl
@[simp] theorem clearHandle_st_lineLow (s : State) : (clearHandle s).st.lineLow = s.st.lineLow := rfl
@[simp] theorem clearHandle_env (s : State) : (clearHandle s).env = s.env := rfl

/-! ### `setHandle` -/

@[simp] theorem setHandle_host (n : Nat) (s : State) : (setHandle n s).host = s.host := rfl
@[simp] theorem setHandle_rpe (n : Nat) (s : State) : (setHandle n s).rpe = s.rpe := rfl
@[simp] theorem setHandle_st_cmd (n : Nat) (s : State) : (setHandle n s).st.cmd = s.st.cmd := rfl
@[simp] theorem setHandle_st_seqList (n : Nat) (s : State) : (setHandle n s).st.seqList = s.st.seqList := rfl
@[simp] theorem setHandle_st_seqStep (n : Nat) (s : State) : (setHandle n s).st.seqStep = s.st.seqStep := rfl
@[simp] theorem setHandle_st_seqOwner (n : Nat) (s : State) : (setHandle n s).st.seqOwner = s.st.seqOwner := rfl
@[simp] theorem setHandle_st_engState (n : Nat) (s : State) : (setHandle n s).st.engState = s.st.engState := rfl
@[simp] theorem setHandle_st_txFrame (n : Nat) (s : State) : (setHandle n s).st.txFrame = s.st.txFrame := rfl
@[simp] theorem setHandle_st_txIdx (n : Nat) (s : State) : (setHandle n s).st.txIdx = s.st.txIdx := rfl
@[simp] theorem setHandle_st_expN (n : Nat) (s : State) : (setHandle n s).st.expN = s.st.expN := rfl
@[simp] theorem setHandle_st_waitTicks (n : Nat) (s : State) : (setHandle n s).st.waitTicks = s.st.waitTicks := rfl
@[simp] theorem setHandle_st_gapTicks (n : Nat) (s : State) : (setHandle n s).st.gapTicks = s.st.gapTicks := rfl
@[simp] theorem setHandle_st_rxFifo (n : Nat) (s : State) : (setHandle n s).st.rxFifo = s.st.rxFifo := rfl
@[simp] theorem setHandle_st_outcome (n : Nat) (s : State) : (setHandle n s).st.outcome = s.st.outcome := rfl
@[simp] theorem setHandle_st_respWords (n : Nat) (s : State) : (setHandle n s).st.respWords = s.st.respWords := rfl
@[simp] theorem setHandle_st_failCount (n : Nat) (s : State) : (setHandle n s).st.failCount = s.st.failCount := rfl
@[simp] theorem setHandle_st_offsetMode (n : Nat) (s : State) : (setHandle n s).st.offsetMode = s.st.offsetMode := rfl
@[simp] theorem setHandle_st_blkValid (n : Nat) (s : State) : (setHandle n s).st.blkValid = true := rfl
@[simp] theorem setHandle_st_blkCount (n : Nat) (s : State) : (setHandle n s).st.blkCount = n := rfl
@[simp] theorem setHandle_st_recPhase (n : Nat) (s : State) : (setHandle n s).st.recPhase = s.st.recPhase := rfl
@[simp] theorem setHandle_st_creepA (n : Nat) (s : State) : (setHandle n s).st.creepA = s.st.creepA := rfl
@[simp] theorem setHandle_st_creepB (n : Nat) (s : State) : (setHandle n s).st.creepB = s.st.creepB := rfl
@[simp] theorem setHandle_st_lineLow (n : Nat) (s : State) : (setHandle n s).st.lineLow = s.st.lineLow := rfl
@[simp] theorem setHandle_env (n : Nat) (s : State) : (setHandle n s).env = s.env := rfl

/-! ### `preIssue` -/

@[simp] theorem preIssue_host (d : Descriptor) (s : State) : (preIssue d s).host = s.host := rfl
@[simp] theorem preIssue_rpe (d : Descriptor) (s : State) : (preIssue d s).rpe = s.rpe := rfl
@[simp] theorem preIssue_st_cmd (d : Descriptor) (s : State) : (preIssue d s).st.cmd = s.st.cmd := rfl
@[simp] theorem preIssue_st_seqList (d : Descriptor) (s : State) : (preIssue d s).st.seqList = s.st.seqList := rfl
@[simp] theorem preIssue_st_seqStep (d : Descriptor) (s : State) : (preIssue d s).st.seqStep = s.st.seqStep := rfl
@[simp] theorem preIssue_st_seqOwner (d : Descriptor) (s : State) : (preIssue d s).st.seqOwner = s.st.seqOwner := rfl
@[simp] theorem preIssue_st_engState (d : Descriptor) (s : State) : (preIssue d s).st.engState = s.st.engState := rfl
@[simp] theorem preIssue_st_txFrame (d : Descriptor) (s : State) : (preIssue d s).st.txFrame = s.st.txFrame := rfl
@[simp] theorem preIssue_st_txIdx (d : Descriptor) (s : State) : (preIssue d s).st.txIdx = s.st.txIdx := rfl
@[simp] theorem preIssue_st_expN (d : Descriptor) (s : State) : (preIssue d s).st.expN = s.st.expN := rfl
@[simp] theorem preIssue_st_waitTicks (d : Descriptor) (s : State) : (preIssue d s).st.waitTicks = s.st.waitTicks := rfl
@[simp] theorem preIssue_st_gapTicks (d : Descriptor) (s : State) : (preIssue d s).st.gapTicks = s.st.gapTicks := rfl
@[simp] theorem preIssue_st_rxFifo (d : Descriptor) (s : State) : (preIssue d s).st.rxFifo = s.st.rxFifo := rfl
@[simp] theorem preIssue_st_outcome (d : Descriptor) (s : State) : (preIssue d s).st.outcome = s.st.outcome := rfl
@[simp] theorem preIssue_st_respWords (d : Descriptor) (s : State) : (preIssue d s).st.respWords = s.st.respWords := rfl
@[simp] theorem preIssue_st_failCount (d : Descriptor) (s : State) : (preIssue d s).st.failCount = s.st.failCount := rfl
@[simp] theorem preIssue_st_offsetMode (d : Descriptor) (s : State) : (preIssue d s).st.offsetMode = s.st.offsetMode := rfl
@[simp] theorem preIssue_st_blkValid (d : Descriptor) (s : State) :
    (preIssue d s).st.blkValid = (s.st.blkValid && !touchesBlockList s.env.cfg s.host.uart d) := rfl
@[simp] theorem preIssue_st_blkCount (d : Descriptor) (s : State) :
    (preIssue d s).st.blkCount = if touchesBlockList s.env.cfg s.host.uart d then 0 else s.st.blkCount := rfl
@[simp] theorem preIssue_st_recPhase (d : Descriptor) (s : State) : (preIssue d s).st.recPhase = s.st.recPhase := rfl
@[simp] theorem preIssue_st_creepA (d : Descriptor) (s : State) : (preIssue d s).st.creepA = s.st.creepA := rfl
@[simp] theorem preIssue_st_creepB (d : Descriptor) (s : State) : (preIssue d s).st.creepB = s.st.creepB := rfl
@[simp] theorem preIssue_st_lineLow (d : Descriptor) (s : State) : (preIssue d s).st.lineLow = s.st.lineLow := rfl
@[simp] theorem preIssue_env (d : Descriptor) (s : State) : (preIssue d s).env = s.env := rfl

/-! ### `insertSwitch` -/

@[simp] theorem insertSwitch_host (d : Descriptor) (s : State) : (insertSwitch d s).host = s.host := rfl
@[simp] theorem insertSwitch_rpe (d : Descriptor) (s : State) : (insertSwitch d s).rpe = s.rpe := rfl
@[simp] theorem insertSwitch_st_cmd (d : Descriptor) (s : State) : (insertSwitch d s).st.cmd = s.st.cmd := rfl
@[simp] theorem insertSwitch_st_seqList (d : Descriptor) (s : State) :
    (insertSwitch d s).st.seqList = s.st.seqList.take s.st.seqStep ++ switchTo s.env.cfg (modeFor d.a) :: s.st.seqList.drop s.st.seqStep := rfl
@[simp] theorem insertSwitch_st_seqStep (d : Descriptor) (s : State) : (insertSwitch d s).st.seqStep = s.st.seqStep := rfl
@[simp] theorem insertSwitch_st_seqOwner (d : Descriptor) (s : State) : (insertSwitch d s).st.seqOwner = s.st.seqOwner := rfl
@[simp] theorem insertSwitch_st_engState (d : Descriptor) (s : State) : (insertSwitch d s).st.engState = s.st.engState := rfl
@[simp] theorem insertSwitch_st_txFrame (d : Descriptor) (s : State) : (insertSwitch d s).st.txFrame = s.st.txFrame := rfl
@[simp] theorem insertSwitch_st_txIdx (d : Descriptor) (s : State) : (insertSwitch d s).st.txIdx = s.st.txIdx := rfl
@[simp] theorem insertSwitch_st_expN (d : Descriptor) (s : State) : (insertSwitch d s).st.expN = s.st.expN := rfl
@[simp] theorem insertSwitch_st_waitTicks (d : Descriptor) (s : State) : (insertSwitch d s).st.waitTicks = s.st.waitTicks := rfl
@[simp] theorem insertSwitch_st_gapTicks (d : Descriptor) (s : State) : (insertSwitch d s).st.gapTicks = s.st.gapTicks := rfl
@[simp] theorem insertSwitch_st_rxFifo (d : Descriptor) (s : State) : (insertSwitch d s).st.rxFifo = s.st.rxFifo := rfl
@[simp] theorem insertSwitch_st_outcome (d : Descriptor) (s : State) : (insertSwitch d s).st.outcome = s.st.outcome := rfl
@[simp] theorem insertSwitch_st_respWords (d : Descriptor) (s : State) : (insertSwitch d s).st.respWords = s.st.respWords := rfl
@[simp] theorem insertSwitch_st_failCount (d : Descriptor) (s : State) : (insertSwitch d s).st.failCount = s.st.failCount := rfl
@[simp] theorem insertSwitch_st_offsetMode (d : Descriptor) (s : State) : (insertSwitch d s).st.offsetMode = s.st.offsetMode := rfl
@[simp] theorem insertSwitch_st_blkValid (d : Descriptor) (s : State) : (insertSwitch d s).st.blkValid = s.st.blkValid := rfl
@[simp] theorem insertSwitch_st_blkCount (d : Descriptor) (s : State) : (insertSwitch d s).st.blkCount = s.st.blkCount := rfl
@[simp] theorem insertSwitch_st_recPhase (d : Descriptor) (s : State) : (insertSwitch d s).st.recPhase = s.st.recPhase := rfl
@[simp] theorem insertSwitch_st_creepA (d : Descriptor) (s : State) : (insertSwitch d s).st.creepA = s.st.creepA := rfl
@[simp] theorem insertSwitch_st_creepB (d : Descriptor) (s : State) : (insertSwitch d s).st.creepB = s.st.creepB := rfl
@[simp] theorem insertSwitch_st_lineLow (d : Descriptor) (s : State) : (insertSwitch d s).st.lineLow = s.st.lineLow := rfl
@[simp] theorem insertSwitch_env (d : Descriptor) (s : State) : (insertSwitch d s).env = s.env := rfl

/-! ### `offsetPost` -/

@[simp] theorem offsetPost_host (d : Descriptor) (o : TxOutcome) (s : State) : (offsetPost d o s).host = s.host := rfl
@[simp] theorem offsetPost_rpe (d : Descriptor) (o : TxOutcome) (s : State) : (offsetPost d o s).rpe = s.rpe := rfl
@[simp] theorem offsetPost_st_cmd (d : Descriptor) (o : TxOutcome) (s : State) : (offsetPost d o s).st.cmd = s.st.cmd := rfl
@[simp] theorem offsetPost_st_seqList (d : Descriptor) (o : TxOutcome) (s : State) : (offsetPost d o s).st.seqList = s.st.seqList := rfl
@[simp] theorem offsetPost_st_seqStep (d : Descriptor) (o : TxOutcome) (s : State) : (offsetPost d o s).st.seqStep = s.st.seqStep := rfl
@[simp] theorem offsetPost_st_seqOwner (d : Descriptor) (o : TxOutcome) (s : State) : (offsetPost d o s).st.seqOwner = s.st.seqOwner := rfl
@[simp] theorem offsetPost_st_engState (d : Descriptor) (o : TxOutcome) (s : State) : (offsetPost d o s).st.engState = s.st.engState := rfl
@[simp] theorem offsetPost_st_txFrame (d : Descriptor) (o : TxOutcome) (s : State) : (offsetPost d o s).st.txFrame = s.st.txFrame := rfl
@[simp] theorem offsetPost_st_txIdx (d : Descriptor) (o : TxOutcome) (s : State) : (offsetPost d o s).st.txIdx = s.st.txIdx := rfl
@[simp] theorem offsetPost_st_expN (d : Descriptor) (o : TxOutcome) (s : State) : (offsetPost d o s).st.expN = s.st.expN := rfl
@[simp] theorem offsetPost_st_waitTicks (d : Descriptor) (o : TxOutcome) (s : State) : (offsetPost d o s).st.waitTicks = s.st.waitTicks := rfl
@[simp] theorem offsetPost_st_gapTicks (d : Descriptor) (o : TxOutcome) (s : State) : (offsetPost d o s).st.gapTicks = s.st.gapTicks := rfl
@[simp] theorem offsetPost_st_rxFifo (d : Descriptor) (o : TxOutcome) (s : State) : (offsetPost d o s).st.rxFifo = s.st.rxFifo := rfl
@[simp] theorem offsetPost_st_outcome (d : Descriptor) (o : TxOutcome) (s : State) : (offsetPost d o s).st.outcome = s.st.outcome := rfl
@[simp] theorem offsetPost_st_respWords (d : Descriptor) (o : TxOutcome) (s : State) : (offsetPost d o s).st.respWords = s.st.respWords := rfl
@[simp] theorem offsetPost_st_failCount (d : Descriptor) (o : TxOutcome) (s : State) : (offsetPost d o s).st.failCount = s.st.failCount := rfl
@[simp] theorem offsetPost_st_offsetMode (d : Descriptor) (o : TxOutcome) (s : State) :
    (offsetPost d o s).st.offsetMode = if s.host.uart then s.st.offsetMode else offsetAfter s.env.cfg d o s.st.offsetMode := rfl
@[simp] theorem offsetPost_st_blkValid (d : Descriptor) (o : TxOutcome) (s : State) : (offsetPost d o s).st.blkValid = s.st.blkValid := rfl
@[simp] theorem offsetPost_st_blkCount (d : Descriptor) (o : TxOutcome) (s : State) : (offsetPost d o s).st.blkCount = s.st.blkCount := rfl
@[simp] theorem offsetPost_st_recPhase (d : Descriptor) (o : TxOutcome) (s : State) : (offsetPost d o s).st.recPhase = s.st.recPhase := rfl
@[simp] theorem offsetPost_st_creepA (d : Descriptor) (o : TxOutcome) (s : State) : (offsetPost d o s).st.creepA = s.st.creepA := rfl
@[simp] theorem offsetPost_st_creepB (d : Descriptor) (o : TxOutcome) (s : State) : (offsetPost d o s).st.creepB = s.st.creepB := rfl
@[simp] theorem offsetPost_st_lineLow (d : Descriptor) (o : TxOutcome) (s : State) : (offsetPost d o s).st.lineLow = s.st.lineLow := rfl
@[simp] theorem offsetPost_env (d : Descriptor) (o : TxOutcome) (s : State) : (offsetPost d o s).env = s.env := rfl

/-! ### `advance` -/

@[simp] theorem advance_host (s : State) : (advance s).host = s.host := rfl
@[simp] theorem advance_rpe (s : State) : (advance s).rpe = s.rpe := rfl
@[simp] theorem advance_st_cmd (s : State) : (advance s).st.cmd = s.st.cmd := rfl
@[simp] theorem advance_st_seqList (s : State) : (advance s).st.seqList = s.st.seqList := rfl
@[simp] theorem advance_st_seqStep (s : State) : (advance s).st.seqStep = s.st.seqStep + 1 := rfl
@[simp] theorem advance_st_seqOwner (s : State) : (advance s).st.seqOwner = s.st.seqOwner := rfl
@[simp] theorem advance_st_engState (s : State) : (advance s).st.engState = s.st.engState := rfl
@[simp] theorem advance_st_txFrame (s : State) : (advance s).st.txFrame = s.st.txFrame := rfl
@[simp] theorem advance_st_txIdx (s : State) : (advance s).st.txIdx = s.st.txIdx := rfl
@[simp] theorem advance_st_expN (s : State) : (advance s).st.expN = s.st.expN := rfl
@[simp] theorem advance_st_waitTicks (s : State) : (advance s).st.waitTicks = s.st.waitTicks := rfl
@[simp] theorem advance_st_gapTicks (s : State) : (advance s).st.gapTicks = s.st.gapTicks := rfl
@[simp] theorem advance_st_rxFifo (s : State) : (advance s).st.rxFifo = s.st.rxFifo := rfl
@[simp] theorem advance_st_outcome (s : State) : (advance s).st.outcome = s.st.outcome := rfl
@[simp] theorem advance_st_respWords (s : State) : (advance s).st.respWords = s.st.respWords := rfl
@[simp] theorem advance_st_failCount (s : State) : (advance s).st.failCount = s.st.failCount := rfl
@[simp] theorem advance_st_offsetMode (s : State) : (advance s).st.offsetMode = s.st.offsetMode := rfl
@[simp] theorem advance_st_blkValid (s : State) : (advance s).st.blkValid = s.st.blkValid := rfl
@[simp] theorem advance_st_blkCount (s : State) : (advance s).st.blkCount = s.st.blkCount := rfl
@[simp] theorem advance_st_recPhase (s : State) : (advance s).st.recPhase = s.st.recPhase := rfl
@[simp] theorem advance_st_creepA (s : State) : (advance s).st.creepA = s.st.creepA := rfl
@[simp] theorem advance_st_creepB (s : State) : (advance s).st.creepB = s.st.creepB := rfl
@[simp] theorem advance_st_lineLow (s : State) : (advance s).st.lineLow = s.st.lineLow := rfl
@[simp] theorem advance_env (s : State) : (advance s).env = s.env := rfl

/-! ### `bookOutcome` -/

@[simp] theorem bookOutcome_host (s : State) : (bookOutcome s).host = s.host := rfl
@[simp] theorem bookOutcome_rpe_done (s : State) : (bookOutcome s).rpe.done = s.rpe.done := rfl
@[simp] theorem bookOutcome_rpe_resetting (s : State) : (bookOutcome s).rpe.resetting = s.rpe.resetting := rfl
@[simp] theorem bookOutcome_rpe_unhealthyEvt (s : State) : (bookOutcome s).rpe.unhealthyEvt = s.rpe.unhealthyEvt := rfl
@[simp] theorem bookOutcome_rpe_recovered (s : State) : (bookOutcome s).rpe.recovered = s.rpe.recovered := rfl
@[simp] theorem bookOutcome_rpe_recoveryFailed (s : State) : (bookOutcome s).rpe.recoveryFailed = s.rpe.recoveryFailed := rfl
@[simp] theorem bookOutcome_rpe_cmdOverrun (s : State) : (bookOutcome s).rpe.cmdOverrun = s.rpe.cmdOverrun := rfl
@[simp] theorem bookOutcome_rpe_wrLocked (s : State) : (bookOutcome s).rpe.wrLocked = s.rpe.wrLocked := rfl
@[simp] theorem bookOutcome_rpe_rxOverflow (s : State) : (bookOutcome s).rpe.rxOverflow = s.rpe.rxOverflow := rfl
@[simp] theorem bookOutcome_rpe_lock (s : State) : (bookOutcome s).rpe.lock = s.rpe.lock := rfl
@[simp] theorem bookOutcome_rpe_errCode (s : State) : (bookOutcome s).rpe.errCode = s.rpe.errCode := rfl
@[simp] theorem bookOutcome_rpe_errCause (s : State) : (bookOutcome s).rpe.errCause = s.rpe.errCause := rfl
@[simp] theorem bookOutcome_rpe_errStep (s : State) : (bookOutcome s).rpe.errStep = s.rpe.errStep := rfl
@[simp] theorem bookOutcome_rpe_recCause (s : State) : (bookOutcome s).rpe.recCause = s.rpe.recCause := rfl
@[simp] theorem bookOutcome_rpe_cksumErrCnt (s : State) :
    (bookOutcome s).rpe.cksumErrCnt = if s.st.outcome = .cksumMismatch then satSucc s.rpe.cksumErrCnt else s.rpe.cksumErrCnt := rfl
@[simp] theorem bookOutcome_rpe_timeoutCnt (s : State) :
    (bookOutcome s).rpe.timeoutCnt = if s.st.outcome = .timedOut then satSucc s.rpe.timeoutCnt else s.rpe.timeoutCnt := rfl
@[simp] theorem bookOutcome_rpe_calOut (s : State) : (bookOutcome s).rpe.calOut = s.rpe.calOut := rfl
@[simp] theorem bookOutcome_rpe_calFlags (s : State) : (bookOutcome s).rpe.calFlags = s.rpe.calFlags := rfl
@[simp] theorem bookOutcome_rpe_lastCksum (s : State) : (bookOutcome s).rpe.lastCksum = s.rpe.lastCksum := rfl
@[simp] theorem bookOutcome_rpe_result (s : State) : (bookOutcome s).rpe.result = s.rpe.result := rfl
@[simp] theorem bookOutcome_st_cmd (s : State) : (bookOutcome s).st.cmd = s.st.cmd := rfl
@[simp] theorem bookOutcome_st_seqList (s : State) : (bookOutcome s).st.seqList = s.st.seqList := rfl
@[simp] theorem bookOutcome_st_seqStep (s : State) : (bookOutcome s).st.seqStep = s.st.seqStep := rfl
@[simp] theorem bookOutcome_st_seqOwner (s : State) : (bookOutcome s).st.seqOwner = s.st.seqOwner := rfl
@[simp] theorem bookOutcome_st_engState (s : State) : (bookOutcome s).st.engState = s.st.engState := rfl
@[simp] theorem bookOutcome_st_txFrame (s : State) : (bookOutcome s).st.txFrame = s.st.txFrame := rfl
@[simp] theorem bookOutcome_st_txIdx (s : State) : (bookOutcome s).st.txIdx = s.st.txIdx := rfl
@[simp] theorem bookOutcome_st_expN (s : State) : (bookOutcome s).st.expN = s.st.expN := rfl
@[simp] theorem bookOutcome_st_waitTicks (s : State) : (bookOutcome s).st.waitTicks = s.st.waitTicks := rfl
@[simp] theorem bookOutcome_st_gapTicks (s : State) : (bookOutcome s).st.gapTicks = s.st.gapTicks := rfl
@[simp] theorem bookOutcome_st_rxFifo (s : State) : (bookOutcome s).st.rxFifo = s.st.rxFifo := rfl
@[simp] theorem bookOutcome_st_outcome (s : State) : (bookOutcome s).st.outcome = s.st.outcome := rfl
@[simp] theorem bookOutcome_st_respWords (s : State) : (bookOutcome s).st.respWords = s.st.respWords := rfl
@[simp] theorem bookOutcome_st_failCount (s : State) :
    (bookOutcome s).st.failCount = failCountAfter s.st.seqOwner s.st.outcome s.st.failCount := rfl
@[simp] theorem bookOutcome_st_offsetMode (s : State) : (bookOutcome s).st.offsetMode = s.st.offsetMode := rfl
@[simp] theorem bookOutcome_st_blkValid (s : State) : (bookOutcome s).st.blkValid = s.st.blkValid := rfl
@[simp] theorem bookOutcome_st_blkCount (s : State) : (bookOutcome s).st.blkCount = s.st.blkCount := rfl
@[simp] theorem bookOutcome_st_recPhase (s : State) : (bookOutcome s).st.recPhase = s.st.recPhase := rfl
@[simp] theorem bookOutcome_st_creepA (s : State) : (bookOutcome s).st.creepA = s.st.creepA := rfl
@[simp] theorem bookOutcome_st_creepB (s : State) : (bookOutcome s).st.creepB = s.st.creepB := rfl
@[simp] theorem bookOutcome_st_lineLow (s : State) : (bookOutcome s).st.lineLow = s.st.lineLow := rfl
@[simp] theorem bookOutcome_env (s : State) : (bookOutcome s).env = s.env := rfl

/-! ### `enterRecovery` -/

@[simp] theorem enterRecovery_host (s : State) : (enterRecovery s).host = s.host := rfl
@[simp] theorem enterRecovery_rpe_done (s : State) : (enterRecovery s).rpe.done = s.rpe.done := rfl
@[simp] theorem enterRecovery_rpe_resetting (s : State) : (enterRecovery s).rpe.resetting = true := rfl
@[simp] theorem enterRecovery_rpe_unhealthyEvt (s : State) : (enterRecovery s).rpe.unhealthyEvt = true := rfl
@[simp] theorem enterRecovery_rpe_recovered (s : State) : (enterRecovery s).rpe.recovered = s.rpe.recovered := rfl
@[simp] theorem enterRecovery_rpe_recoveryFailed (s : State) : (enterRecovery s).rpe.recoveryFailed = s.rpe.recoveryFailed := rfl
@[simp] theorem enterRecovery_rpe_cmdOverrun (s : State) : (enterRecovery s).rpe.cmdOverrun = s.rpe.cmdOverrun := rfl
@[simp] theorem enterRecovery_rpe_wrLocked (s : State) : (enterRecovery s).rpe.wrLocked = s.rpe.wrLocked := rfl
@[simp] theorem enterRecovery_rpe_rxOverflow (s : State) : (enterRecovery s).rpe.rxOverflow = s.rpe.rxOverflow := rfl
@[simp] theorem enterRecovery_rpe_lock (s : State) : (enterRecovery s).rpe.lock = s.rpe.lock := rfl
@[simp] theorem enterRecovery_rpe_errCode (s : State) : (enterRecovery s).rpe.errCode = s.rpe.errCode := rfl
@[simp] theorem enterRecovery_rpe_errCause (s : State) : (enterRecovery s).rpe.errCause = s.rpe.errCause := rfl
@[simp] theorem enterRecovery_rpe_errStep (s : State) : (enterRecovery s).rpe.errStep = s.rpe.errStep := rfl
@[simp] theorem enterRecovery_rpe_recCause (s : State) : (enterRecovery s).rpe.recCause = s.rpe.recCause := rfl
@[simp] theorem enterRecovery_rpe_cksumErrCnt (s : State) : (enterRecovery s).rpe.cksumErrCnt = s.rpe.cksumErrCnt := rfl
@[simp] theorem enterRecovery_rpe_timeoutCnt (s : State) : (enterRecovery s).rpe.timeoutCnt = s.rpe.timeoutCnt := rfl
@[simp] theorem enterRecovery_rpe_calOut (s : State) : (enterRecovery s).rpe.calOut = s.rpe.calOut := rfl
@[simp] theorem enterRecovery_rpe_calFlags (s : State) : (enterRecovery s).rpe.calFlags = s.rpe.calFlags := rfl
@[simp] theorem enterRecovery_rpe_lastCksum (s : State) : (enterRecovery s).rpe.lastCksum = s.rpe.lastCksum := rfl
@[simp] theorem enterRecovery_rpe_result (s : State) : (enterRecovery s).rpe.result = s.rpe.result := rfl
@[simp] theorem enterRecovery_st_cmd (s : State) : (enterRecovery s).st.cmd = s.st.cmd := rfl
@[simp] theorem enterRecovery_st_seqList (s : State) : (enterRecovery s).st.seqList = s.st.seqList := rfl
@[simp] theorem enterRecovery_st_seqStep (s : State) : (enterRecovery s).st.seqStep = s.st.seqStep := rfl
@[simp] theorem enterRecovery_st_seqOwner (s : State) : (enterRecovery s).st.seqOwner = s.st.seqOwner := rfl
@[simp] theorem enterRecovery_st_engState (s : State) : (enterRecovery s).st.engState = s.st.engState := rfl
@[simp] theorem enterRecovery_st_txFrame (s : State) : (enterRecovery s).st.txFrame = s.st.txFrame := rfl
@[simp] theorem enterRecovery_st_txIdx (s : State) : (enterRecovery s).st.txIdx = s.st.txIdx := rfl
@[simp] theorem enterRecovery_st_expN (s : State) : (enterRecovery s).st.expN = s.st.expN := rfl
@[simp] theorem enterRecovery_st_waitTicks (s : State) : (enterRecovery s).st.waitTicks = 0 := rfl
@[simp] theorem enterRecovery_st_gapTicks (s : State) : (enterRecovery s).st.gapTicks = s.st.gapTicks := rfl
@[simp] theorem enterRecovery_st_rxFifo (s : State) : (enterRecovery s).st.rxFifo = s.st.rxFifo := rfl
@[simp] theorem enterRecovery_st_outcome (s : State) : (enterRecovery s).st.outcome = s.st.outcome := rfl
@[simp] theorem enterRecovery_st_respWords (s : State) : (enterRecovery s).st.respWords = s.st.respWords := rfl
@[simp] theorem enterRecovery_st_failCount (s : State) : (enterRecovery s).st.failCount = 0 := rfl
@[simp] theorem enterRecovery_st_offsetMode (s : State) : (enterRecovery s).st.offsetMode = s.st.offsetMode := rfl
@[simp] theorem enterRecovery_st_blkValid (s : State) : (enterRecovery s).st.blkValid = s.st.blkValid := rfl
@[simp] theorem enterRecovery_st_blkCount (s : State) : (enterRecovery s).st.blkCount = s.st.blkCount := rfl
@[simp] theorem enterRecovery_st_recPhase (s : State) : (enterRecovery s).st.recPhase = .preHigh := rfl
@[simp] theorem enterRecovery_st_creepA (s : State) : (enterRecovery s).st.creepA = s.st.creepA := rfl
@[simp] theorem enterRecovery_st_creepB (s : State) : (enterRecovery s).st.creepB = s.st.creepB := rfl
@[simp] theorem enterRecovery_st_lineLow (s : State) : (enterRecovery s).st.lineLow = s.st.lineLow := rfl
@[simp] theorem enterRecovery_env (s : State) : (enterRecovery s).env = s.env := rfl

/-! ### `endRecovery` -/

@[simp] theorem endRecovery_host (ok : Bool) (cause : BitVec 4) (s : State) : (endRecovery ok cause s).host = s.host := rfl
@[simp] theorem endRecovery_rpe_done (ok : Bool) (cause : BitVec 4) (s : State) : (endRecovery ok cause s).rpe.done = s.rpe.done := rfl
@[simp] theorem endRecovery_rpe_resetting (ok : Bool) (cause : BitVec 4) (s : State) : (endRecovery ok cause s).rpe.resetting = false := rfl
@[simp] theorem endRecovery_rpe_unhealthyEvt (ok : Bool) (cause : BitVec 4) (s : State) : (endRecovery ok cause s).rpe.unhealthyEvt = s.rpe.unhealthyEvt := rfl
@[simp] theorem endRecovery_rpe_recovered (ok : Bool) (cause : BitVec 4) (s : State) : (endRecovery ok cause s).rpe.recovered = (s.rpe.recovered || ok) := rfl
@[simp] theorem endRecovery_rpe_recoveryFailed (ok : Bool) (cause : BitVec 4) (s : State) : (endRecovery ok cause s).rpe.recoveryFailed = (s.rpe.recoveryFailed || !ok) := rfl
@[simp] theorem endRecovery_rpe_cmdOverrun (ok : Bool) (cause : BitVec 4) (s : State) : (endRecovery ok cause s).rpe.cmdOverrun = s.rpe.cmdOverrun := rfl
@[simp] theorem endRecovery_rpe_wrLocked (ok : Bool) (cause : BitVec 4) (s : State) : (endRecovery ok cause s).rpe.wrLocked = s.rpe.wrLocked := rfl
@[simp] theorem endRecovery_rpe_rxOverflow (ok : Bool) (cause : BitVec 4) (s : State) : (endRecovery ok cause s).rpe.rxOverflow = s.rpe.rxOverflow := rfl
@[simp] theorem endRecovery_rpe_lock (ok : Bool) (cause : BitVec 4) (s : State) : (endRecovery ok cause s).rpe.lock = s.rpe.lock := rfl
@[simp] theorem endRecovery_rpe_errCode (ok : Bool) (cause : BitVec 4) (s : State) : (endRecovery ok cause s).rpe.errCode = s.rpe.errCode := rfl
@[simp] theorem endRecovery_rpe_errCause (ok : Bool) (cause : BitVec 4) (s : State) : (endRecovery ok cause s).rpe.errCause = s.rpe.errCause := rfl
@[simp] theorem endRecovery_rpe_errStep (ok : Bool) (cause : BitVec 4) (s : State) : (endRecovery ok cause s).rpe.errStep = s.rpe.errStep := rfl
@[simp] theorem endRecovery_rpe_recCause (ok : Bool) (cause : BitVec 4) (s : State) : (endRecovery ok cause s).rpe.recCause = cause := rfl
@[simp] theorem endRecovery_rpe_cksumErrCnt (ok : Bool) (cause : BitVec 4) (s : State) : (endRecovery ok cause s).rpe.cksumErrCnt = s.rpe.cksumErrCnt := rfl
@[simp] theorem endRecovery_rpe_timeoutCnt (ok : Bool) (cause : BitVec 4) (s : State) : (endRecovery ok cause s).rpe.timeoutCnt = s.rpe.timeoutCnt := rfl
@[simp] theorem endRecovery_rpe_calOut (ok : Bool) (cause : BitVec 4) (s : State) : (endRecovery ok cause s).rpe.calOut = s.rpe.calOut := rfl
@[simp] theorem endRecovery_rpe_calFlags (ok : Bool) (cause : BitVec 4) (s : State) : (endRecovery ok cause s).rpe.calFlags = s.rpe.calFlags := rfl
@[simp] theorem endRecovery_rpe_lastCksum (ok : Bool) (cause : BitVec 4) (s : State) : (endRecovery ok cause s).rpe.lastCksum = s.rpe.lastCksum := rfl
@[simp] theorem endRecovery_rpe_result (ok : Bool) (cause : BitVec 4) (s : State) : (endRecovery ok cause s).rpe.result = s.rpe.result := rfl
@[simp] theorem endRecovery_st_cmd (ok : Bool) (cause : BitVec 4) (s : State) : (endRecovery ok cause s).st.cmd = s.st.cmd := rfl
@[simp] theorem endRecovery_st_seqList (ok : Bool) (cause : BitVec 4) (s : State) : (endRecovery ok cause s).st.seqList = [] := rfl
@[simp] theorem endRecovery_st_seqStep (ok : Bool) (cause : BitVec 4) (s : State) : (endRecovery ok cause s).st.seqStep = 0 := rfl
@[simp] theorem endRecovery_st_seqOwner (ok : Bool) (cause : BitVec 4) (s : State) : (endRecovery ok cause s).st.seqOwner = .none := rfl
@[simp] theorem endRecovery_st_engState (ok : Bool) (cause : BitVec 4) (s : State) : (endRecovery ok cause s).st.engState = s.st.engState := rfl
@[simp] theorem endRecovery_st_txFrame (ok : Bool) (cause : BitVec 4) (s : State) : (endRecovery ok cause s).st.txFrame = s.st.txFrame := rfl
@[simp] theorem endRecovery_st_txIdx (ok : Bool) (cause : BitVec 4) (s : State) : (endRecovery ok cause s).st.txIdx = s.st.txIdx := rfl
@[simp] theorem endRecovery_st_expN (ok : Bool) (cause : BitVec 4) (s : State) : (endRecovery ok cause s).st.expN = s.st.expN := rfl
@[simp] theorem endRecovery_st_waitTicks (ok : Bool) (cause : BitVec 4) (s : State) : (endRecovery ok cause s).st.waitTicks = s.st.waitTicks := rfl
@[simp] theorem endRecovery_st_gapTicks (ok : Bool) (cause : BitVec 4) (s : State) : (endRecovery ok cause s).st.gapTicks = s.st.gapTicks := rfl
@[simp] theorem endRecovery_st_rxFifo (ok : Bool) (cause : BitVec 4) (s : State) : (endRecovery ok cause s).st.rxFifo = s.st.rxFifo := rfl
@[simp] theorem endRecovery_st_outcome (ok : Bool) (cause : BitVec 4) (s : State) : (endRecovery ok cause s).st.outcome = s.st.outcome := rfl
@[simp] theorem endRecovery_st_respWords (ok : Bool) (cause : BitVec 4) (s : State) : (endRecovery ok cause s).st.respWords = s.st.respWords := rfl
@[simp] theorem endRecovery_st_failCount (ok : Bool) (cause : BitVec 4) (s : State) : (endRecovery ok cause s).st.failCount = s.st.failCount := rfl
@[simp] theorem endRecovery_st_offsetMode (ok : Bool) (cause : BitVec 4) (s : State) : (endRecovery ok cause s).st.offsetMode = s.st.offsetMode := rfl
@[simp] theorem endRecovery_st_blkValid (ok : Bool) (cause : BitVec 4) (s : State) : (endRecovery ok cause s).st.blkValid = s.st.blkValid := rfl
@[simp] theorem endRecovery_st_blkCount (ok : Bool) (cause : BitVec 4) (s : State) : (endRecovery ok cause s).st.blkCount = s.st.blkCount := rfl
@[simp] theorem endRecovery_st_recPhase (ok : Bool) (cause : BitVec 4) (s : State) : (endRecovery ok cause s).st.recPhase = .none := rfl
@[simp] theorem endRecovery_st_creepA (ok : Bool) (cause : BitVec 4) (s : State) : (endRecovery ok cause s).st.creepA = s.st.creepA := rfl
@[simp] theorem endRecovery_st_creepB (ok : Bool) (cause : BitVec 4) (s : State) : (endRecovery ok cause s).st.creepB = s.st.creepB := rfl
@[simp] theorem endRecovery_st_lineLow (ok : Bool) (cause : BitVec 4) (s : State) : (endRecovery ok cause s).st.lineLow = s.st.lineLow := rfl
@[simp] theorem endRecovery_env (ok : Bool) (cause : BitVec 4) (s : State) : (endRecovery ok cause s).env = s.env := rfl

/-! ### `writeResults` -/

@[simp] theorem writeResults_host (n : Nat) (s : State) : (writeResults n s).host = s.host := rfl
@[simp] theorem writeResults_rpe_done (n : Nat) (s : State) : (writeResults n s).rpe.done = s.rpe.done := rfl
@[simp] theorem writeResults_rpe_resetting (n : Nat) (s : State) : (writeResults n s).rpe.resetting = s.rpe.resetting := rfl
@[simp] theorem writeResults_rpe_unhealthyEvt (n : Nat) (s : State) : (writeResults n s).rpe.unhealthyEvt = s.rpe.unhealthyEvt := rfl
@[simp] theorem writeResults_rpe_recovered (n : Nat) (s : State) : (writeResults n s).rpe.recovered = s.rpe.recovered := rfl
@[simp] theorem writeResults_rpe_recoveryFailed (n : Nat) (s : State) : (writeResults n s).rpe.recoveryFailed = s.rpe.recoveryFailed := rfl
@[simp] theorem writeResults_rpe_cmdOverrun (n : Nat) (s : State) : (writeResults n s).rpe.cmdOverrun = s.rpe.cmdOverrun := rfl
@[simp] theorem writeResults_rpe_wrLocked (n : Nat) (s : State) : (writeResults n s).rpe.wrLocked = s.rpe.wrLocked := rfl
@[simp] theorem writeResults_rpe_rxOverflow (n : Nat) (s : State) : (writeResults n s).rpe.rxOverflow = s.rpe.rxOverflow := rfl
@[simp] theorem writeResults_rpe_lock (n : Nat) (s : State) : (writeResults n s).rpe.lock = s.rpe.lock := rfl
@[simp] theorem writeResults_rpe_errCode (n : Nat) (s : State) : (writeResults n s).rpe.errCode = s.rpe.errCode := rfl
@[simp] theorem writeResults_rpe_errCause (n : Nat) (s : State) : (writeResults n s).rpe.errCause = s.rpe.errCause := rfl
@[simp] theorem writeResults_rpe_errStep (n : Nat) (s : State) : (writeResults n s).rpe.errStep = s.rpe.errStep := rfl
@[simp] theorem writeResults_rpe_recCause (n : Nat) (s : State) : (writeResults n s).rpe.recCause = s.rpe.recCause := rfl
@[simp] theorem writeResults_rpe_cksumErrCnt (n : Nat) (s : State) : (writeResults n s).rpe.cksumErrCnt = s.rpe.cksumErrCnt := rfl
@[simp] theorem writeResults_rpe_timeoutCnt (n : Nat) (s : State) : (writeResults n s).rpe.timeoutCnt = s.rpe.timeoutCnt := rfl
@[simp] theorem writeResults_rpe_calOut (n : Nat) (s : State) : (writeResults n s).rpe.calOut = s.rpe.calOut := rfl
@[simp] theorem writeResults_rpe_calFlags (n : Nat) (s : State) : (writeResults n s).rpe.calFlags = s.rpe.calFlags := rfl
@[simp] theorem writeResults_rpe_lastCksum (n : Nat) (s : State) : (writeResults n s).rpe.lastCksum = s.rpe.lastCksum := rfl
@[simp] theorem writeResults_st (n : Nat) (s : State) : (writeResults n s).st = s.st := rfl
@[simp] theorem writeResults_env (n : Nat) (s : State) : (writeResults n s).env = s.env := rfl

/-! ### `latchCksum` -/

@[simp] theorem latchCksum_host (ck : Word) (s : State) : (latchCksum ck s).host = s.host := rfl
@[simp] theorem latchCksum_rpe_done (ck : Word) (s : State) : (latchCksum ck s).rpe.done = s.rpe.done := rfl
@[simp] theorem latchCksum_rpe_resetting (ck : Word) (s : State) : (latchCksum ck s).rpe.resetting = s.rpe.resetting := rfl
@[simp] theorem latchCksum_rpe_unhealthyEvt (ck : Word) (s : State) : (latchCksum ck s).rpe.unhealthyEvt = s.rpe.unhealthyEvt := rfl
@[simp] theorem latchCksum_rpe_recovered (ck : Word) (s : State) : (latchCksum ck s).rpe.recovered = s.rpe.recovered := rfl
@[simp] theorem latchCksum_rpe_recoveryFailed (ck : Word) (s : State) : (latchCksum ck s).rpe.recoveryFailed = s.rpe.recoveryFailed := rfl
@[simp] theorem latchCksum_rpe_cmdOverrun (ck : Word) (s : State) : (latchCksum ck s).rpe.cmdOverrun = s.rpe.cmdOverrun := rfl
@[simp] theorem latchCksum_rpe_wrLocked (ck : Word) (s : State) : (latchCksum ck s).rpe.wrLocked = s.rpe.wrLocked := rfl
@[simp] theorem latchCksum_rpe_rxOverflow (ck : Word) (s : State) : (latchCksum ck s).rpe.rxOverflow = s.rpe.rxOverflow := rfl
@[simp] theorem latchCksum_rpe_lock (ck : Word) (s : State) : (latchCksum ck s).rpe.lock = s.rpe.lock := rfl
@[simp] theorem latchCksum_rpe_errCode (ck : Word) (s : State) : (latchCksum ck s).rpe.errCode = s.rpe.errCode := rfl
@[simp] theorem latchCksum_rpe_errCause (ck : Word) (s : State) : (latchCksum ck s).rpe.errCause = s.rpe.errCause := rfl
@[simp] theorem latchCksum_rpe_errStep (ck : Word) (s : State) : (latchCksum ck s).rpe.errStep = s.rpe.errStep := rfl
@[simp] theorem latchCksum_rpe_recCause (ck : Word) (s : State) : (latchCksum ck s).rpe.recCause = s.rpe.recCause := rfl
@[simp] theorem latchCksum_rpe_cksumErrCnt (ck : Word) (s : State) : (latchCksum ck s).rpe.cksumErrCnt = s.rpe.cksumErrCnt := rfl
@[simp] theorem latchCksum_rpe_timeoutCnt (ck : Word) (s : State) : (latchCksum ck s).rpe.timeoutCnt = s.rpe.timeoutCnt := rfl
@[simp] theorem latchCksum_rpe_calOut (ck : Word) (s : State) : (latchCksum ck s).rpe.calOut = s.rpe.calOut := rfl
@[simp] theorem latchCksum_rpe_calFlags (ck : Word) (s : State) : (latchCksum ck s).rpe.calFlags = s.rpe.calFlags := rfl
@[simp] theorem latchCksum_rpe_lastCksum (ck : Word) (s : State) :
    (latchCksum ck s).rpe.lastCksum = ck := rfl
@[simp] theorem latchCksum_rpe_result (ck : Word) (s : State) : (latchCksum ck s).rpe.result = s.rpe.result := rfl
@[simp] theorem latchCksum_st (ck : Word) (s : State) : (latchCksum ck s).st = s.st := rfl
@[simp] theorem latchCksum_env (ck : Word) (s : State) : (latchCksum ck s).env = s.env := rfl

/-! ### `toIdle` -/

@[simp] theorem toIdle_host (s : State) : (toIdle s).host = s.host := rfl
@[simp] theorem toIdle_rpe (s : State) : (toIdle s).rpe = s.rpe := rfl
@[simp] theorem toIdle_st_cmd (s : State) : (toIdle s).st.cmd = s.st.cmd := rfl
@[simp] theorem toIdle_st_seqList (s : State) : (toIdle s).st.seqList = s.st.seqList := rfl
@[simp] theorem toIdle_st_seqStep (s : State) : (toIdle s).st.seqStep = s.st.seqStep := rfl
@[simp] theorem toIdle_st_seqOwner (s : State) : (toIdle s).st.seqOwner = s.st.seqOwner := rfl
@[simp] theorem toIdle_st_engState (s : State) : (toIdle s).st.engState = .idle := rfl
@[simp] theorem toIdle_st_txFrame (s : State) : (toIdle s).st.txFrame = s.st.txFrame := rfl
@[simp] theorem toIdle_st_txIdx (s : State) : (toIdle s).st.txIdx = 0 := rfl
@[simp] theorem toIdle_st_expN (s : State) : (toIdle s).st.expN = s.st.expN := rfl
@[simp] theorem toIdle_st_waitTicks (s : State) : (toIdle s).st.waitTicks = s.st.waitTicks := rfl
@[simp] theorem toIdle_st_gapTicks (s : State) : (toIdle s).st.gapTicks = 0 := rfl
@[simp] theorem toIdle_st_rxFifo (s : State) : (toIdle s).st.rxFifo = [] := rfl
@[simp] theorem toIdle_st_outcome (s : State) : (toIdle s).st.outcome = s.st.outcome := rfl
@[simp] theorem toIdle_st_respWords (s : State) : (toIdle s).st.respWords = s.st.respWords := rfl
@[simp] theorem toIdle_st_failCount (s : State) : (toIdle s).st.failCount = s.st.failCount := rfl
@[simp] theorem toIdle_st_offsetMode (s : State) : (toIdle s).st.offsetMode = s.st.offsetMode := rfl
@[simp] theorem toIdle_st_blkValid (s : State) : (toIdle s).st.blkValid = s.st.blkValid := rfl
@[simp] theorem toIdle_st_blkCount (s : State) : (toIdle s).st.blkCount = s.st.blkCount := rfl
@[simp] theorem toIdle_st_recPhase (s : State) : (toIdle s).st.recPhase = s.st.recPhase := rfl
@[simp] theorem toIdle_st_creepA (s : State) : (toIdle s).st.creepA = s.st.creepA := rfl
@[simp] theorem toIdle_st_creepB (s : State) : (toIdle s).st.creepB = s.st.creepB := rfl
@[simp] theorem toIdle_st_lineLow (s : State) : (toIdle s).st.lineLow = s.st.lineLow := rfl
@[simp] theorem toIdle_env (s : State) : (toIdle s).env = s.env := rfl

/-! ### `reinitialise` -/

@[simp] theorem reinitialise_host (s : State) : (reinitialise s).host = s.host := rfl
@[simp] theorem reinitialise_rpe (s : State) : (reinitialise s).rpe = s.rpe := rfl
@[simp] theorem reinitialise_env (s : State) : (reinitialise s).env = s.env := rfl
@[simp] theorem reinitialise_st_cmd (s : State) : (reinitialise s).st.cmd = s.st.cmd := rfl
@[simp] theorem reinitialise_st_seqList (s : State) : (reinitialise s).st.seqList = s.st.seqList := rfl
@[simp] theorem reinitialise_st_seqStep (s : State) : (reinitialise s).st.seqStep = s.st.seqStep := rfl
@[simp] theorem reinitialise_st_seqOwner (s : State) : (reinitialise s).st.seqOwner = s.st.seqOwner := rfl
@[simp] theorem reinitialise_st_engState (s : State) : (reinitialise s).st.engState = s.st.engState := rfl
@[simp] theorem reinitialise_st_txFrame (s : State) : (reinitialise s).st.txFrame = s.st.txFrame := rfl
@[simp] theorem reinitialise_st_txIdx (s : State) : (reinitialise s).st.txIdx = s.st.txIdx := rfl
@[simp] theorem reinitialise_st_expN (s : State) : (reinitialise s).st.expN = s.st.expN := rfl
@[simp] theorem reinitialise_st_waitTicks (s : State) : (reinitialise s).st.waitTicks = s.st.waitTicks := rfl
@[simp] theorem reinitialise_st_gapTicks (s : State) : (reinitialise s).st.gapTicks = 0 := rfl
@[simp] theorem reinitialise_st_rxFifo (s : State) : (reinitialise s).st.rxFifo = [] := rfl
@[simp] theorem reinitialise_st_outcome (s : State) : (reinitialise s).st.outcome = s.st.outcome := rfl
@[simp] theorem reinitialise_st_respWords (s : State) : (reinitialise s).st.respWords = s.st.respWords := rfl
@[simp] theorem reinitialise_st_failCount (s : State) : (reinitialise s).st.failCount = s.st.failCount := rfl
@[simp] theorem reinitialise_st_offsetMode (s : State) : (reinitialise s).st.offsetMode = .unknown := rfl
@[simp] theorem reinitialise_st_blkValid (s : State) : (reinitialise s).st.blkValid = false := rfl
@[simp] theorem reinitialise_st_blkCount (s : State) : (reinitialise s).st.blkCount = 0 := rfl
@[simp] theorem reinitialise_st_recPhase (s : State) : (reinitialise s).st.recPhase = .reload := rfl
@[simp] theorem reinitialise_st_creepA (s : State) : (reinitialise s).st.creepA = s.st.creepA := rfl
@[simp] theorem reinitialise_st_creepB (s : State) : (reinitialise s).st.creepB = s.st.creepB := rfl
@[simp] theorem reinitialise_st_lineLow (s : State) : (reinitialise s).st.lineLow = s.st.lineLow := rfl

/-! ### `tickStep` -/

@[simp] theorem tickStep_host (s : State) : (tickStep s).host = s.host := rfl
@[simp] theorem tickStep_rpe (s : State) : (tickStep s).rpe = s.rpe := rfl
@[simp] theorem tickStep_st_cmd (s : State) : (tickStep s).st.cmd = s.st.cmd := rfl
@[simp] theorem tickStep_st_seqList (s : State) : (tickStep s).st.seqList = s.st.seqList := rfl
@[simp] theorem tickStep_st_seqStep (s : State) : (tickStep s).st.seqStep = s.st.seqStep := rfl
@[simp] theorem tickStep_st_seqOwner (s : State) : (tickStep s).st.seqOwner = s.st.seqOwner := rfl
@[simp] theorem tickStep_st_engState (s : State) : (tickStep s).st.engState = s.st.engState := rfl
@[simp] theorem tickStep_st_txFrame (s : State) : (tickStep s).st.txFrame = s.st.txFrame := rfl
@[simp] theorem tickStep_st_txIdx (s : State) : (tickStep s).st.txIdx = s.st.txIdx := rfl
@[simp] theorem tickStep_st_expN (s : State) : (tickStep s).st.expN = s.st.expN := rfl
@[simp] theorem tickStep_st_waitTicks (s : State) :
    (tickStep s).st.waitTicks = if waitCounts s.st then satSucc s.st.waitTicks else s.st.waitTicks := rfl
@[simp] theorem tickStep_st_gapTicks (s : State) :
    (tickStep s).st.gapTicks = if gapCounts s.st then satSucc s.st.gapTicks else s.st.gapTicks := rfl
@[simp] theorem tickStep_st_rxFifo (s : State) : (tickStep s).st.rxFifo = s.st.rxFifo := rfl
@[simp] theorem tickStep_st_outcome (s : State) : (tickStep s).st.outcome = s.st.outcome := rfl
@[simp] theorem tickStep_st_respWords (s : State) : (tickStep s).st.respWords = s.st.respWords := rfl
@[simp] theorem tickStep_st_failCount (s : State) : (tickStep s).st.failCount = s.st.failCount := rfl
@[simp] theorem tickStep_st_offsetMode (s : State) : (tickStep s).st.offsetMode = s.st.offsetMode := rfl
@[simp] theorem tickStep_st_blkValid (s : State) : (tickStep s).st.blkValid = s.st.blkValid := rfl
@[simp] theorem tickStep_st_blkCount (s : State) : (tickStep s).st.blkCount = s.st.blkCount := rfl
@[simp] theorem tickStep_st_recPhase (s : State) : (tickStep s).st.recPhase = s.st.recPhase := rfl
@[simp] theorem tickStep_st_creepA (s : State) : (tickStep s).st.creepA = s.st.creepA := rfl
@[simp] theorem tickStep_st_creepB (s : State) : (tickStep s).st.creepB = s.st.creepB := rfl
@[simp] theorem tickStep_st_lineLow (s : State) : (tickStep s).st.lineLow = s.st.lineLow := rfl
@[simp] theorem tickStep_env (s : State) : (tickStep s).env = s.env := rfl

/-! ### `refuseWrite` -/

@[simp] theorem refuseWrite_host (s : State) : (refuseWrite s).host = s.host := rfl
@[simp] theorem refuseWrite_rpe_done (s : State) : (refuseWrite s).rpe.done = s.rpe.done := rfl
@[simp] theorem refuseWrite_rpe_resetting (s : State) : (refuseWrite s).rpe.resetting = s.rpe.resetting := rfl
@[simp] theorem refuseWrite_rpe_unhealthyEvt (s : State) : (refuseWrite s).rpe.unhealthyEvt = s.rpe.unhealthyEvt := rfl
@[simp] theorem refuseWrite_rpe_recovered (s : State) : (refuseWrite s).rpe.recovered = s.rpe.recovered := rfl
@[simp] theorem refuseWrite_rpe_recoveryFailed (s : State) : (refuseWrite s).rpe.recoveryFailed = s.rpe.recoveryFailed := rfl
@[simp] theorem refuseWrite_rpe_cmdOverrun (s : State) : (refuseWrite s).rpe.cmdOverrun = s.rpe.cmdOverrun := rfl
@[simp] theorem refuseWrite_rpe_wrLocked (s : State) : (refuseWrite s).rpe.wrLocked = true := rfl
@[simp] theorem refuseWrite_rpe_rxOverflow (s : State) : (refuseWrite s).rpe.rxOverflow = s.rpe.rxOverflow := rfl
@[simp] theorem refuseWrite_rpe_lock (s : State) : (refuseWrite s).rpe.lock = s.rpe.lock := rfl
@[simp] theorem refuseWrite_rpe_errCode (s : State) : (refuseWrite s).rpe.errCode = s.rpe.errCode := rfl
@[simp] theorem refuseWrite_rpe_errCause (s : State) : (refuseWrite s).rpe.errCause = s.rpe.errCause := rfl
@[simp] theorem refuseWrite_rpe_errStep (s : State) : (refuseWrite s).rpe.errStep = s.rpe.errStep := rfl
@[simp] theorem refuseWrite_rpe_recCause (s : State) : (refuseWrite s).rpe.recCause = s.rpe.recCause := rfl
@[simp] theorem refuseWrite_rpe_cksumErrCnt (s : State) : (refuseWrite s).rpe.cksumErrCnt = s.rpe.cksumErrCnt := rfl
@[simp] theorem refuseWrite_rpe_timeoutCnt (s : State) : (refuseWrite s).rpe.timeoutCnt = s.rpe.timeoutCnt := rfl
@[simp] theorem refuseWrite_rpe_calOut (s : State) : (refuseWrite s).rpe.calOut = s.rpe.calOut := rfl
@[simp] theorem refuseWrite_rpe_calFlags (s : State) : (refuseWrite s).rpe.calFlags = s.rpe.calFlags := rfl
@[simp] theorem refuseWrite_rpe_lastCksum (s : State) : (refuseWrite s).rpe.lastCksum = s.rpe.lastCksum := rfl
@[simp] theorem refuseWrite_rpe_result (s : State) : (refuseWrite s).rpe.result = s.rpe.result := rfl
@[simp] theorem refuseWrite_st (s : State) : (refuseWrite s).st = s.st := rfl
@[simp] theorem refuseWrite_env (s : State) : (refuseWrite s).env = s.env := rfl

/-! ### `respond` -/

@[simp] theorem respond_host (b : BusResponse) (s : State) : (respond b s).host = s.host := rfl
@[simp] theorem respond_rpe (b : BusResponse) (s : State) : (respond b s).rpe = s.rpe := rfl
@[simp] theorem respond_st (b : BusResponse) (s : State) : (respond b s).st = s.st := rfl
@[simp] theorem respond_env_cfg (b : BusResponse) (s : State) : (respond b s).env.cfg = s.env.cfg := rfl
@[simp] theorem respond_env_rst (b : BusResponse) (s : State) : (respond b s).env.rst = s.env.rst := rfl
@[simp] theorem respond_env_script (b : BusResponse) (s : State) : (respond b s).env.script = s.env.script := rfl
@[simp] theorem respond_env_draws (b : BusResponse) (s : State) : (respond b s).env.draws = s.env.draws := rfl
@[simp] theorem respond_env_bus (b : BusResponse) (s : State) : (respond b s).env.bus = b := rfl
@[simp] theorem respond_env_sent (b : BusResponse) (s : State) : (respond b s).env.sent = s.env.sent := rfl

/-! ### `calResult` -/

@[simp] theorem calResult_host (out : Word) (flags : CalFlags) (s : State) : (calResult out flags s).host = s.host := rfl
@[simp] theorem calResult_rpe_done (out : Word) (flags : CalFlags) (s : State) : (calResult out flags s).rpe.done = true := rfl
@[simp] theorem calResult_rpe_resetting (out : Word) (flags : CalFlags) (s : State) : (calResult out flags s).rpe.resetting = s.rpe.resetting := rfl
@[simp] theorem calResult_rpe_unhealthyEvt (out : Word) (flags : CalFlags) (s : State) : (calResult out flags s).rpe.unhealthyEvt = s.rpe.unhealthyEvt := rfl
@[simp] theorem calResult_rpe_recovered (out : Word) (flags : CalFlags) (s : State) : (calResult out flags s).rpe.recovered = s.rpe.recovered := rfl
@[simp] theorem calResult_rpe_recoveryFailed (out : Word) (flags : CalFlags) (s : State) : (calResult out flags s).rpe.recoveryFailed = s.rpe.recoveryFailed := rfl
@[simp] theorem calResult_rpe_cmdOverrun (out : Word) (flags : CalFlags) (s : State) : (calResult out flags s).rpe.cmdOverrun = s.rpe.cmdOverrun := rfl
@[simp] theorem calResult_rpe_wrLocked (out : Word) (flags : CalFlags) (s : State) : (calResult out flags s).rpe.wrLocked = s.rpe.wrLocked := rfl
@[simp] theorem calResult_rpe_rxOverflow (out : Word) (flags : CalFlags) (s : State) : (calResult out flags s).rpe.rxOverflow = s.rpe.rxOverflow := rfl
@[simp] theorem calResult_rpe_lock (out : Word) (flags : CalFlags) (s : State) : (calResult out flags s).rpe.lock = s.rpe.lock := rfl
@[simp] theorem calResult_rpe_errCode (out : Word) (flags : CalFlags) (s : State) : (calResult out flags s).rpe.errCode = codeOk := rfl
@[simp] theorem calResult_rpe_errCause (out : Word) (flags : CalFlags) (s : State) : (calResult out flags s).rpe.errCause = 0 := rfl
@[simp] theorem calResult_rpe_errStep (out : Word) (flags : CalFlags) (s : State) : (calResult out flags s).rpe.errStep = 0 := rfl
@[simp] theorem calResult_rpe_recCause (out : Word) (flags : CalFlags) (s : State) : (calResult out flags s).rpe.recCause = s.rpe.recCause := rfl
@[simp] theorem calResult_rpe_cksumErrCnt (out : Word) (flags : CalFlags) (s : State) : (calResult out flags s).rpe.cksumErrCnt = s.rpe.cksumErrCnt := rfl
@[simp] theorem calResult_rpe_timeoutCnt (out : Word) (flags : CalFlags) (s : State) : (calResult out flags s).rpe.timeoutCnt = s.rpe.timeoutCnt := rfl
@[simp] theorem calResult_rpe_calOut (out : Word) (flags : CalFlags) (s : State) : (calResult out flags s).rpe.calOut = out := rfl
@[simp] theorem calResult_rpe_calFlags (out : Word) (flags : CalFlags) (s : State) : (calResult out flags s).rpe.calFlags = flags := rfl
@[simp] theorem calResult_rpe_lastCksum (out : Word) (flags : CalFlags) (s : State) : (calResult out flags s).rpe.lastCksum = s.rpe.lastCksum := rfl
@[simp] theorem calResult_rpe_result (out : Word) (flags : CalFlags) (s : State) : (calResult out flags s).rpe.result = s.rpe.result := rfl
@[simp] theorem calResult_st_cmd (out : Word) (flags : CalFlags) (s : State) : (calResult out flags s).st.cmd = s.st.cmd := rfl
@[simp] theorem calResult_st_seqList (out : Word) (flags : CalFlags) (s : State) :
    (calResult out flags s).st.seqList = if s.busy then [] else s.st.seqList := rfl
@[simp] theorem calResult_st_seqStep (out : Word) (flags : CalFlags) (s : State) :
    (calResult out flags s).st.seqStep = if s.busy then 0 else s.st.seqStep := rfl
@[simp] theorem calResult_st_seqOwner (out : Word) (flags : CalFlags) (s : State) :
    (calResult out flags s).st.seqOwner = if s.busy then .none else s.st.seqOwner := rfl
@[simp] theorem calResult_st_engState (out : Word) (flags : CalFlags) (s : State) : (calResult out flags s).st.engState = s.st.engState := rfl
@[simp] theorem calResult_st_txFrame (out : Word) (flags : CalFlags) (s : State) : (calResult out flags s).st.txFrame = s.st.txFrame := rfl
@[simp] theorem calResult_st_txIdx (out : Word) (flags : CalFlags) (s : State) : (calResult out flags s).st.txIdx = s.st.txIdx := rfl
@[simp] theorem calResult_st_expN (out : Word) (flags : CalFlags) (s : State) : (calResult out flags s).st.expN = s.st.expN := rfl
@[simp] theorem calResult_st_waitTicks (out : Word) (flags : CalFlags) (s : State) : (calResult out flags s).st.waitTicks = s.st.waitTicks := rfl
@[simp] theorem calResult_st_gapTicks (out : Word) (flags : CalFlags) (s : State) : (calResult out flags s).st.gapTicks = s.st.gapTicks := rfl
@[simp] theorem calResult_st_rxFifo (out : Word) (flags : CalFlags) (s : State) : (calResult out flags s).st.rxFifo = s.st.rxFifo := rfl
@[simp] theorem calResult_st_outcome (out : Word) (flags : CalFlags) (s : State) : (calResult out flags s).st.outcome = s.st.outcome := rfl
@[simp] theorem calResult_st_respWords (out : Word) (flags : CalFlags) (s : State) : (calResult out flags s).st.respWords = s.st.respWords := rfl
@[simp] theorem calResult_st_failCount (out : Word) (flags : CalFlags) (s : State) : (calResult out flags s).st.failCount = s.st.failCount := rfl
@[simp] theorem calResult_st_offsetMode (out : Word) (flags : CalFlags) (s : State) : (calResult out flags s).st.offsetMode = s.st.offsetMode := rfl
@[simp] theorem calResult_st_blkValid (out : Word) (flags : CalFlags) (s : State) : (calResult out flags s).st.blkValid = s.st.blkValid := rfl
@[simp] theorem calResult_st_blkCount (out : Word) (flags : CalFlags) (s : State) : (calResult out flags s).st.blkCount = s.st.blkCount := rfl
@[simp] theorem calResult_st_recPhase (out : Word) (flags : CalFlags) (s : State) : (calResult out flags s).st.recPhase = s.st.recPhase := rfl
@[simp] theorem calResult_st_creepA (out : Word) (flags : CalFlags) (s : State) : (calResult out flags s).st.creepA = s.st.creepA := rfl
@[simp] theorem calResult_st_creepB (out : Word) (flags : CalFlags) (s : State) : (calResult out flags s).st.creepB = s.st.creepB := rfl
@[simp] theorem calResult_st_lineLow (out : Word) (flags : CalFlags) (s : State) : (calResult out flags s).st.lineLow = s.st.lineLow := rfl
@[simp] theorem calResult_env (out : Word) (flags : CalFlags) (s : State) : (calResult out flags s).env = s.env := rfl

/-! ### `keepCreepA` -/

@[simp] theorem keepCreepA_host (s : State) : (keepCreepA s).host = s.host := rfl
@[simp] theorem keepCreepA_rpe (s : State) : (keepCreepA s).rpe = s.rpe := rfl
@[simp] theorem keepCreepA_st_cmd (s : State) : (keepCreepA s).st.cmd = s.st.cmd := rfl
@[simp] theorem keepCreepA_st_seqList (s : State) : (keepCreepA s).st.seqList = s.st.seqList := rfl
@[simp] theorem keepCreepA_st_seqStep (s : State) : (keepCreepA s).st.seqStep = s.st.seqStep := rfl
@[simp] theorem keepCreepA_st_seqOwner (s : State) : (keepCreepA s).st.seqOwner = s.st.seqOwner := rfl
@[simp] theorem keepCreepA_st_engState (s : State) : (keepCreepA s).st.engState = s.st.engState := rfl
@[simp] theorem keepCreepA_st_txFrame (s : State) : (keepCreepA s).st.txFrame = s.st.txFrame := rfl
@[simp] theorem keepCreepA_st_txIdx (s : State) : (keepCreepA s).st.txIdx = s.st.txIdx := rfl
@[simp] theorem keepCreepA_st_expN (s : State) : (keepCreepA s).st.expN = s.st.expN := rfl
@[simp] theorem keepCreepA_st_waitTicks (s : State) : (keepCreepA s).st.waitTicks = s.st.waitTicks := rfl
@[simp] theorem keepCreepA_st_gapTicks (s : State) : (keepCreepA s).st.gapTicks = s.st.gapTicks := rfl
@[simp] theorem keepCreepA_st_rxFifo (s : State) : (keepCreepA s).st.rxFifo = s.st.rxFifo := rfl
@[simp] theorem keepCreepA_st_outcome (s : State) : (keepCreepA s).st.outcome = s.st.outcome := rfl
@[simp] theorem keepCreepA_st_respWords (s : State) : (keepCreepA s).st.respWords = s.st.respWords := rfl
@[simp] theorem keepCreepA_st_failCount (s : State) : (keepCreepA s).st.failCount = s.st.failCount := rfl
@[simp] theorem keepCreepA_st_offsetMode (s : State) : (keepCreepA s).st.offsetMode = s.st.offsetMode := rfl
@[simp] theorem keepCreepA_st_blkValid (s : State) : (keepCreepA s).st.blkValid = s.st.blkValid := rfl
@[simp] theorem keepCreepA_st_blkCount (s : State) : (keepCreepA s).st.blkCount = s.st.blkCount := rfl
@[simp] theorem keepCreepA_st_recPhase (s : State) : (keepCreepA s).st.recPhase = s.st.recPhase := rfl
@[simp] theorem keepCreepA_st_creepA (s : State) : (keepCreepA s).st.creepA = s.rpe.calFlags.creep := rfl
@[simp] theorem keepCreepA_st_creepB (s : State) : (keepCreepA s).st.creepB = s.st.creepB := rfl
@[simp] theorem keepCreepA_st_lineLow (s : State) : (keepCreepA s).st.lineLow = s.st.lineLow := rfl
@[simp] theorem keepCreepA_env (s : State) : (keepCreepA s).env = s.env := rfl

/-! ### `keepCreepB` -/

@[simp] theorem keepCreepB_host (s : State) : (keepCreepB s).host = s.host := rfl
@[simp] theorem keepCreepB_rpe (s : State) : (keepCreepB s).rpe = s.rpe := rfl
@[simp] theorem keepCreepB_st_cmd (s : State) : (keepCreepB s).st.cmd = s.st.cmd := rfl
@[simp] theorem keepCreepB_st_seqList (s : State) : (keepCreepB s).st.seqList = s.st.seqList := rfl
@[simp] theorem keepCreepB_st_seqStep (s : State) : (keepCreepB s).st.seqStep = s.st.seqStep := rfl
@[simp] theorem keepCreepB_st_seqOwner (s : State) : (keepCreepB s).st.seqOwner = s.st.seqOwner := rfl
@[simp] theorem keepCreepB_st_engState (s : State) : (keepCreepB s).st.engState = s.st.engState := rfl
@[simp] theorem keepCreepB_st_txFrame (s : State) : (keepCreepB s).st.txFrame = s.st.txFrame := rfl
@[simp] theorem keepCreepB_st_txIdx (s : State) : (keepCreepB s).st.txIdx = s.st.txIdx := rfl
@[simp] theorem keepCreepB_st_expN (s : State) : (keepCreepB s).st.expN = s.st.expN := rfl
@[simp] theorem keepCreepB_st_waitTicks (s : State) : (keepCreepB s).st.waitTicks = s.st.waitTicks := rfl
@[simp] theorem keepCreepB_st_gapTicks (s : State) : (keepCreepB s).st.gapTicks = s.st.gapTicks := rfl
@[simp] theorem keepCreepB_st_rxFifo (s : State) : (keepCreepB s).st.rxFifo = s.st.rxFifo := rfl
@[simp] theorem keepCreepB_st_outcome (s : State) : (keepCreepB s).st.outcome = s.st.outcome := rfl
@[simp] theorem keepCreepB_st_respWords (s : State) : (keepCreepB s).st.respWords = s.st.respWords := rfl
@[simp] theorem keepCreepB_st_failCount (s : State) : (keepCreepB s).st.failCount = s.st.failCount := rfl
@[simp] theorem keepCreepB_st_offsetMode (s : State) : (keepCreepB s).st.offsetMode = s.st.offsetMode := rfl
@[simp] theorem keepCreepB_st_blkValid (s : State) : (keepCreepB s).st.blkValid = s.st.blkValid := rfl
@[simp] theorem keepCreepB_st_blkCount (s : State) : (keepCreepB s).st.blkCount = s.st.blkCount := rfl
@[simp] theorem keepCreepB_st_recPhase (s : State) : (keepCreepB s).st.recPhase = s.st.recPhase := rfl
@[simp] theorem keepCreepB_st_creepA (s : State) : (keepCreepB s).st.creepA = s.st.creepA := rfl
@[simp] theorem keepCreepB_st_creepB (s : State) : (keepCreepB s).st.creepB = s.rpe.calFlags.creep := rfl
@[simp] theorem keepCreepB_st_lineLow (s : State) : (keepCreepB s).st.lineLow = s.st.lineLow := rfl
@[simp] theorem keepCreepB_env (s : State) : (keepCreepB s).env = s.env := rfl

/-! ### `withEvent` -/

@[simp] theorem withEvent_host (e : Event) (s : State) : (withEvent e s).host = s.host := rfl
@[simp] theorem withEvent_rpe (e : Event) (s : State) : (withEvent e s).rpe = s.rpe := rfl
@[simp] theorem withEvent_st (e : Event) (s : State) : (withEvent e s).st = s.st := rfl
@[simp] theorem withEvent_env_cfg (e : Event) (s : State) : (withEvent e s).env.cfg = s.env.cfg := rfl
@[simp] theorem withEvent_env_rst (e : Event) (s : State) : (withEvent e s).env.rst = false := rfl
@[simp] theorem withEvent_env_script (e : Event) (s : State) : (withEvent e s).env.script = e :: s.env.script := rfl
@[simp] theorem withEvent_env_draws (e : Event) (s : State) : (withEvent e s).env.draws = s.env.draws := rfl
@[simp] theorem withEvent_env_bus (e : Event) (s : State) : (withEvent e s).env.bus = s.env.bus := rfl
@[simp] theorem withEvent_env_sent (e : Event) (s : State) : (withEvent e s).env.sent = s.env.sent := rfl

/-! ### `holdReset` -/

@[simp] theorem holdReset_host (level : Bool) (s : State) : (holdReset level s).host = HostRegs.reset := rfl
@[simp] theorem holdReset_rpe (level : Bool) (s : State) : (holdReset level s).rpe = RpeRegs.reset := rfl
@[simp] theorem holdReset_st (level : Bool) (s : State) : (holdReset level s).st = Hidden.reset := rfl
@[simp] theorem holdReset_env_rst (level : Bool) (s : State) : (holdReset level s).env.rst = level := rfl
@[simp] theorem holdReset_env_cfg (level : Bool) (s : State) : (holdReset level s).env.cfg = s.env.cfg := rfl
@[simp] theorem holdReset_env_script (level : Bool) (s : State) : (holdReset level s).env.script = s.env.script := rfl
@[simp] theorem holdReset_env_draws (level : Bool) (s : State) : (holdReset level s).env.draws = s.env.draws := rfl
@[simp] theorem holdReset_env_bus (level : Bool) (s : State) : (holdReset level s).env.bus = s.env.bus := rfl
@[simp] theorem holdReset_env_sent (level : Bool) (s : State) : (holdReset level s).env.sent = s.env.sent := rfl

end Sys2Proof.Machine
end

