-- ==== Sys2Proof/Laws/Ops.lean ====
section
/-! SUPPORT. One lemma per shared operation that says once everything it can do; proofs cite these instead of unfolding. -/

namespace Sys2Proof.Machine

/-! ### BUSY and completion -/

theorem busy_iff (s : State) : s.busy = true ↔ s.st.seqOwner = .host := by
  simp [State.busy]

theorem not_busy_iff (s : State) : s.busy = false ↔ s.st.seqOwner ≠ .host := by
  simp [State.busy]

/-- `finish` at acceptance, no host command running: ERR and DONE alone. -/
theorem finish_of_not_busy {s : State} (h : s.busy = false) (code cause : BitVec 4) (step : Nat) :
    finish code cause step s = { s with rpe := { s.rpe with
      done := true, errCode := code, errCause := cause, errStep := BitVec.ofNat 8 step } } := by
  simp [finish, h]

/-- `finish` of a running host command also releases the sequencer. -/
theorem finish_of_busy {s : State} (h : s.busy = true) (code cause : BitVec 4) (step : Nat) :
    finish code cause step s = { s with
      rpe := { s.rpe with done := true, errCode := code, errCause := cause, errStep := BitVec.ofNat 8 step }
      st := { s.st with seqOwner := .none, seqList := [], seqStep := 0 } } := by
  simp [finish, h]

/-! ### Acceptance -/

/-- What a well-formed bus command's CMD write can do (R163, R164). -/
theorem busCommand_cases (w : Word) (p : Bool) (run : State → State) (s : State) :
    (s.busy = true ∧ busCommand w p run s = overrun s)
    ∨ (s.busy = false ∧ s.rpe.resetting = true
        ∧ busCommand w p run s = finish codeDeviceResetting 0 0 (latchCommand w s))
    ∨ (s.busy = false ∧ s.rpe.resetting = false ∧ s.host.baud = 0
        ∧ busCommand w p run s = finish codePreconditionViolation 0 0 (latchCommand w s))
    ∨ (s.busy = false ∧ s.rpe.resetting = false ∧ s.host.baud ≠ 0 ∧ p = false
        ∧ busCommand w p run s = finish codePreconditionViolation 0 0 (latchCommand w s))
    ∨ (s.busy = false ∧ s.rpe.resetting = false ∧ s.host.baud ≠ 0 ∧ p = true
        ∧ busCommand w p run s
          = run { latchCommand w s with rpe := { (latchCommand w s).rpe with lock := true } }) := by
  unfold busCommand acceptBus
  by_cases hb : s.busy = true
  · exact .inl ⟨hb, by simp [hb]⟩
  · simp only [Bool.not_eq_true] at hb
    by_cases hr : s.rpe.resetting = true
    · exact .inr (.inl ⟨hb, hr, by simp [hb, hr]⟩)
    · simp only [Bool.not_eq_true] at hr
      by_cases hz : s.host.baud = 0
      · exact .inr (.inr (.inl ⟨hb, hr, hz, by simp [hb, hr, hz]⟩))
      · have hz' : ¬ (latchCommand w s).host.baud = 0 := hz
        cases p
        · exact .inr (.inr (.inr (.inl ⟨hb, hr, hz, rfl, by rw [if_neg (by simp [hb]), if_neg (by simp [hr]), if_neg hz']; rfl⟩)))
        · exact .inr (.inr (.inr (.inr ⟨hb, hr, hz, rfl, by rw [if_neg (by simp [hb]), if_neg (by simp [hr]), if_neg hz']; rfl⟩)))

/-- What a pipeline command's CMD write can do (R163, R164). -/
theorem pipelineCommand_cases (w : Word) (run : State → State) (s : State) :
    (s.busy = true ∧ pipelineCommand w run s = overrun s)
    ∨ (s.busy = false ∧ pipelineCommand w run s = run (latchCommand w s)) := by
  unfold pipelineCommand
  cases h : s.busy
  · exact .inr ⟨rfl, by simp⟩
  · exact .inl ⟨rfl, by simp⟩

/-- What an ill-formed CMD word can do (R84, R163). -/
theorem badCommand_cases (w : Word) (s : State) :
    (s.busy = true ∧ badCommand w s = overrun s)
    ∨ (s.busy = false ∧ badCommand w s = finish codeBadCommand 0 0 (latchCommand w s)) := by
  unfold badCommand
  cases h : s.busy
  · exact .inr ⟨rfl, by simp⟩
  · exact .inl ⟨rfl, by simp⟩

/-! ### Execute and Xfer -/

/-- Execute in IDLE (R101). -/
theorem execute_of_idle {s : State} (h : s.st.engState = .idle) (frame : List Byte) (n : Nat) :
    execute frame n s = { s with st := { s.st with
      txFrame := frame, txIdx := 0, expN := n, outcome := .none, respWords := [], engState := .guard } } := by
  simp [execute, h]

/-- Execute elsewhere is not enabled (R101). -/
theorem execute_of_not_idle {s : State} (h : s.st.engState ≠ .idle) (frame : List Byte) (n : Nat) :
    execute frame n s = s := by
  simp [execute, h]

@[simp] theorem execute_host (frame : List Byte) (n : Nat) (s : State) : (execute frame n s).host = s.host := by
  unfold execute; split <;> rfl
@[simp] theorem execute_rpe (frame : List Byte) (n : Nat) (s : State) : (execute frame n s).rpe = s.rpe := by
  unfold execute; split <;> rfl
@[simp] theorem execute_env (frame : List Byte) (n : Nat) (s : State) : (execute frame n s).env = s.env := by
  unfold execute; split <;> rfl

/-- Xfer where no switch is needed (R120): the descriptor itself is issued. -/
theorem xferOf_plain {s : State} {d : Descriptor} (h : needsSwitch s d = false) :
    xferOf d s = issue d (preIssue d s) := by
  simp [xferOf, issuedFor, prepareXfer, h]

/-- Xfer where a switch is needed (R120): it goes ahead of the descriptor. -/
theorem xferOf_switch {s : State} {d : Descriptor} (h : needsSwitch s d = true) :
    xferOf d s = issue (switchTo s.env.cfg (modeFor d.a))
      (preIssue (switchTo s.env.cfg (modeFor d.a)) (insertSwitch d s)) := by
  simp [xferOf, issuedFor, prepareXfer, h]

/-- start_seq of a list with a first descriptor (R122). -/
theorem startSeq_cons (owner : Owner) (d : Descriptor) (ds : List Descriptor) (s : State) :
    startSeq owner (d :: ds) s
      = xferOf d { s with st := { s.st with seqOwner := owner, seqList := d :: ds, seqStep := 0 } } := by
  simp [startSeq, xfer, currentDescriptor]

@[simp] theorem xferOf_host (d : Descriptor) (s : State) : (xferOf d s).host = s.host := by
  simp only [xferOf, issue, prepareXfer, execute_host, preIssue_host]; split <;> rfl
@[simp] theorem xferOf_rpe (d : Descriptor) (s : State) : (xferOf d s).rpe = s.rpe := by
  simp only [xferOf, issue, prepareXfer, execute_rpe, preIssue_rpe]; split <;> rfl
@[simp] theorem xferOf_env (d : Descriptor) (s : State) : (xferOf d s).env = s.env := by
  simp only [xferOf, issue, prepareXfer, execute_env, preIssue_env]; split <;> rfl

/-! ### The transaction end -/

/-- What the sequencer can do at a transaction end (R122): go on after a good outcome, or end the sequence. -/
theorem sequencerReacts_cases {s t : State} (h : sequencerReacts s = some t) :
    ∃ d, currentDescriptor s = some d
      ∧ ((s.st.outcome = .complete ∧ continueSequence (advance (offsetPost d .complete s)) = some t)
        ∨ (s.st.outcome = .completeNoCheck
            ∧ continueSequence (advance (offsetPost d .completeNoCheck s)) = some t)
        ∨ (s.st.outcome = .timedOut ∧ sequenceFail .timedOut (offsetPost d .timedOut s) = some t)
        ∨ (s.st.outcome = .cksumMismatch
            ∧ sequenceFail .cksumMismatch (offsetPost d .cksumMismatch s) = some t)) := by
  unfold sequencerReacts at h
  cases hd : currentDescriptor s with
  | none => simp [hd] at h
  | some d =>
    refine ⟨d, rfl, ?_⟩
    cases ho : s.st.outcome <;> simp_all

/-- What a transaction end answers (R115): never a refusal, and a next state exactly where the sequencer reacts. -/
theorem txEnd_next_iff (s t : State) :
    txEnd s = .next t ↔ ∃ u, sequencerReacts (bookOutcome (toIdle s)) = some u ∧ healthCheck (tripsHealth s) u = t := by
  unfold txEnd orStray
  cases sequencerReacts (bookOutcome (toIdle s)) <;> simp

/-- Where an outcome leads (R115): into HOLD in SPI 4-wire, to the transaction end elsewhere. -/
theorem conclude_cases (o : TxOutcome) (s : State) :
    (s.host.wireMode = .spi4
        ∧ conclude o s = .next { s with st := { s.st with outcome := o, engState := .hold, waitTicks := 0 } })
    ∨ (s.host.wireMode ≠ .spi4 ∧ conclude o s = txEnd { s with st := { s.st with outcome := o } }) := by
  unfold conclude
  by_cases h : s.host.wireMode = .spi4
  · exact .inl ⟨h, by simp [h]⟩
  · exact .inr ⟨h, by simp [h]⟩

/-! ### The engine's states -/

theorem stepGuard_cases (s : State) :
    stepGuard s = s
    ∨ (elapsed s.st.gapTicks (guardUs s.env.cfg s.host) = true ∧ s.host.wireMode = .spi4
        ∧ stepGuard s = { s with st := { s.st with engState := .setup, waitTicks := 0 } })
    ∨ (elapsed s.st.gapTicks (guardUs s.env.cfg s.host) = true ∧ s.host.wireMode ≠ .spi4
        ∧ stepGuard s = { s with st := { s.st with engState := .sending } }) := by
  unfold stepGuard
  split
  · split <;> simp_all
  · simp

theorem stepSetup_cases (s : State) :
    stepSetup s = s
    ∨ (elapsed s.st.waitTicks s.env.cfg.csSetupUs = true
        ∧ stepSetup s = { s with st := { s.st with engState := .sending } }) := by
  unfold stepSetup
  split <;> simp_all

theorem stepSending_cases (txDone : Bool) (s : State) :
    (¬ (s.st.txIdx = s.st.txFrame.length ∧ txDone = true) ∧ stepSending txDone s = .next s)
    ∨ (s.st.txIdx = s.st.txFrame.length ∧ txDone = true ∧ 0 < s.st.expN
        ∧ stepSending txDone s
          = .next { s with st := { s.st with engState := .awaiting, rxFifo := [], waitTicks := 0 } })
    ∨ (s.st.txIdx = s.st.txFrame.length ∧ txDone = true ∧ s.st.expN = 0
        ∧ stepSending txDone s = conclude .completeNoCheck s) := by
  unfold stepSending
  by_cases h : s.st.txIdx = s.st.txFrame.length ∧ txDone = true
  · by_cases hn : 0 < s.st.expN
    · exact .inr (.inl ⟨h.1, h.2, hn, by simp [h, hn]⟩)
    · exact .inr (.inr ⟨h.1, h.2, by omega, by simp [h, hn]⟩)
  · exact .inl ⟨h, by simp [h]⟩

theorem stepAwaiting_cases (s : State) :
    (s.st.expN ≤ s.st.rxFifo.length ∧ stepAwaiting s = takeResponse s)
    ∨ (s.st.rxFifo.length < s.st.expN ∧ elapsed s.st.waitTicks (timeoutUs s.env.cfg s.host s.st.expN) = true
        ∧ stepAwaiting s = conclude .timedOut s)
    ∨ (s.st.rxFifo.length < s.st.expN ∧ elapsed s.st.waitTicks (timeoutUs s.env.cfg s.host s.st.expN) = false
        ∧ stepAwaiting s = .next s) := by
  unfold stepAwaiting
  by_cases h : s.st.expN ≤ s.st.rxFifo.length
  · exact .inl ⟨h, by simp [h]⟩
  · have h' : s.st.rxFifo.length < s.st.expN := by omega
    cases he : elapsed s.st.waitTicks (timeoutUs s.env.cfg s.host s.st.expN)
    · exact .inr (.inr ⟨h', rfl, by simp [h]⟩)
    · exact .inr (.inl ⟨h', rfl, by simp [h]⟩)

theorem stepHold_cases (s : State) :
    (elapsed s.st.waitTicks s.env.cfg.csHoldUs = true ∧ stepHold s = txEnd s)
    ∨ (elapsed s.st.waitTicks s.env.cfg.csHoldUs = false ∧ stepHold s = .next s) := by
  unfold stepHold
  cases elapsed s.st.waitTicks s.env.cfg.csHoldUs <;> simp

/-! ### The host's accesses -/

/-- A host read changes the bus interface's answer alone (R39). -/
theorem hostRead_cases (off : BitVec 12) (size : Nat) (s : State) :
    (accessOk off size = true ∧ hostRead off size s = respond (.data (csrRead s (csrAt off))) s)
    ∨ (accessOk off size = false ∧ hostRead off size s = respond (.readError 0) s) := by
  unfold hostRead
  cases accessOk off size <;> simp

/-- A CSR write stores, or sets WR_LOCKED (R38). -/
theorem csrWrite_cases (r : Csr) (w : Word) (s : State) :
    (csrLocked s r = true ∧ csrWrite r w s = refuseWrite s)
    ∨ (csrLocked s r = false ∧ csrWrite r w s = csrStore w s r) := by
  unfold csrWrite
  cases csrLocked s r <;> simp

/-- A plain store changes host registers, or sticky flags and counters, and nothing hidden. -/
@[simp] theorem csrStore_st (w : Word) (s : State) (r : Csr) : (csrStore w s r).st = s.st := by
  cases r <;> rfl
@[simp] theorem csrStore_env (w : Word) (s : State) (r : Csr) : (csrStore w s r).env = s.env := by
  cases r <;> rfl

/-! ### The channel agents -/

theorem channelTxStep_cases (s : State) :
    (offeredByte s.st = none ∧ channelTxStep s = s)
    ∨ (∃ b, offeredByte s.st = some b
        ∧ channelTxStep s = { s with
            st := { s.st with txIdx := s.st.txIdx + 1 }, env := { s.env with sent := s.env.sent ++ [b] } }) := by
  unfold channelTxStep
  cases offeredByte s.st <;> simp

theorem channelRxStep_cases (b : Byte) (s : State) :
    (s.st.rxFifo.length < Config.rxDepth
        ∧ channelRxStep b s = { s with st := { s.st with rxFifo := s.st.rxFifo ++ [b] } })
    ∨ (Config.rxDepth ≤ s.st.rxFifo.length
        ∧ channelRxStep b s = { s with rpe := { s.rpe with rxOverflow := true } }) := by
  unfold channelRxStep
  by_cases h : s.st.rxFifo.length < Config.rxDepth
  · exact .inl ⟨h, by simp [h]⟩
  · exact .inr ⟨by omega, by simp [h]⟩

/-! ### The parameters: what their constraints give (R7) -/

/-- The constraints of R7 that depend on the wire mode, taken apart. -/
theorem params_wire_constraints (c : Params) :
    (Config.fitUart c.opn.addrSysBlkUart.toList = true ∧ Config.fitUart (c.postCksumWritesUart.map Prod.fst) = true)
    ∧ c.postCksumWrites.length ≤ 8 ∧ c.postCksumWritesUart.length ≤ 8 := by
  have h := c.legal
  simp only [ParamValues.wf, OpenParams.wf, ParamValues.postOk, Bool.and_eq_true, decide_eq_true_eq] at h
  tauto

/-- What fits UART has seven bits. -/
theorem fitUart_mem {l : List Byte} (h : Config.fitUart l = true) : ∀ a ∈ l, a.toNat ≤ 0x7F := fun a ha =>
  of_decide_eq_true (List.all_eq_true.1 h a ha)

/-- In UART the SYS_BLK_ADDR addresses have seven bits. -/
theorem sysBlkAddrs_uart (c : Params) : ∀ a ∈ (sysBlkAddrs c true).toList, a.toNat ≤ 0x7F :=
  fitUart_mem (params_wire_constraints c).1.1

/-- In UART the post-checksum writes have seven-bit addresses. -/
theorem postWrites_uart (c : Params) : ∀ p ∈ postWrites c true, p.1.toNat ≤ 0x7F := fun p hp =>
  fitUart_mem (params_wire_constraints c).1.2 p.1 (List.mem_map_of_mem hp)

/-- There are at most eight post-checksum writes. -/
theorem postWrites_length (c : Params) (uart : Bool) : (postWrites c uart).length ≤ 8 := by
  cases uart
  · exact (params_wire_constraints c).2.1
  · exact (params_wire_constraints c).2.2

/-! ### The configuration checksum

Kernel and `simp` unfold `configCksum` and `lcList` into thirty sums on symbolic images. Generalise them to variables, or
cite these lemmas. -/

/-- Σ of words modulo 2^32, as a sum of naturals. -/
theorem wordSum_toNat (l : List Word) : (wordSum l).toNat = (l.map BitVec.toNat).sum % 2 ^ 32 := by
  induction l with
  | nil => rfl
  | cons v vs ih => simp [wordSum, ih, BitVec.toNat_add]

/-- 0xFFFFFFFF minus a word is its complement. -/
theorem allOnes_sub_toNat (x : Word) : (0xFFFFFFFF - x).toNat = 4294967295 - x.toNat := by
  have := x.isLt
  rw [BitVec.toNat_sub]
  simp
  omega

/-- `ck` of R133 as a natural. -/
theorem configCksum_toNat (c : Params) (img : Vector Word 30) :
    (configCksum c img).toNat = 4294967295 - (wordSum (configValues c img)).toNat :=
  allOnes_sub_toNat _

/-! ### One step -/

/-- The next agent step, where one is listed. -/
theorem step_of_script {s : State} {e : Event} {rest : List Event} (h : s.env.script = e :: rest) :
    step s = agentStep e { s with env := { s.env with script := rest } } := by
  simp [step, nextEvent, consumeEvent, h]

/-- The next agent step, where none is listed: a free draw. -/
theorem step_of_no_script {s : State} (h : s.env.script = []) :
    step s = agentStep (Config.environment s.env.draws)
      { s with env := { s.env with draws := s.env.draws + 1 } } := by
  simp [step, nextEvent, consumeEvent, h]

theorem agentStep_in_reset {s : State} (h : s.env.rst = true) (e : Event) :
    agentStep e s = .next (stepInReset e s) := by
  simp [agentStep, h]

/-- The wire instruction fetched at an IDLE step is the frame of the descriptor that Xfer issues (R119, R120). -/
theorem exec_fetchedWire (s : State) (d : Descriptor) :
    exec (fetchedWire s d) (prepareXfer d s) = .next (xferOf d s) := by
  have hh : (prepareXfer d s).host = s.host := by simp only [prepareXfer, preIssue_host]; split <;> rfl
  have hc : ∀ a : Byte, cmd2Of (cmd2Of a) = cmd2Of a := by decide
  unfold fetchedWire wireInstrOf xferOf issue
  rw [hh]
  unfold frameOf respLen
  cases (issuedFor s d).op <;>
    simp only [exec, execWireWrite, execWireRead, execWireBroadcast, execWireBlock, hh, encodeWrite, encodeRead,
      encodeBroadcast, encodeBlockRead, hc]

/-- One step in IDLE: the waiting descriptor's Xfer, or the recovery sequencer. -/
theorem stepIdle_eq (s : State) :
    stepIdle s = .next (match currentDescriptor s with | some d => xferOf d s | none => stepRecovery s) := by
  unfold stepIdle
  cases currentDescriptor s with
  | some d => simp only [exec_fetchedWire]
  | none => rfl

theorem agentStep_running {s : State} (h : s.env.rst = false) (e : Event) : agentStep e s = stepRunning e s := by
  simp [agentStep, h]

end Sys2Proof.Machine
end

