-- ==== Sys2Proof/Laws/PerInstr.lean ====
section
/-! SUPPORT. A family of statements, one per instruction: the encoding has the size and the operation code that the
opcode table gives it. -/

namespace Sys2Proof.Laws.EncodingSize

/-- A host command is a word with its reserved bits 0 and an OP of 0x1–0x8 (R80, R81); a wire operation is a body of six
bytes where it carries data, else of two, and CMD2[7] is 0 where the address is a seven-bit one (R70, R73, R76). -/
def Statement (i : Instr) : Prop :=
  match encode i with
  | .cmd w => cmdReserved w = 0 ∧ 1 ≤ (cmdOp w).toNat ∧ (cmdOp w).toNat ≤ 8
  | .wire body =>
    (body.length = 6 ∨ body.length = 2) ∧ (i.wf = true → ∀ c2, body[1]? = some c2 → c2.toNat < 0x80)

theorem wireWrite (dev : BitVec 2) (addr : Byte) (data : Word) : Statement (.wireWrite dev addr data) := by
  simp [Statement, encode, encodeBody, bytesLe, Instr.wf, cmd2Ok]
theorem wireBroadcast (dev : BitVec 2) (addr : Byte) (data : Word) : Statement (.wireBroadcast dev addr data) := by
  simp [Statement, encode, encodeBody, bytesLe, Instr.wf, cmd2Ok]
theorem wireRead (n : Nat) (dev : BitVec 2) (addr : Byte) : Statement (.wireRead n dev addr) := by
  simp [Statement, encode, encodeBody, Instr.wf, cmd2Ok]
theorem wireBlock (n : Nat) (dev : BitVec 2) : Statement (.wireBlock n dev) := by
  simp [Statement, encode, encodeBody, Instr.wf]
theorem read (n : Nat) (a : Byte) : Statement (.read n a) := by
  simp [Statement, encode, cmdWord_fields]
theorem write (a : Byte) : Statement (.write a) := by
  simp [Statement, encode, cmdWord_fields]
theorem broadcast (a : Byte) : Statement (.broadcast a) := by
  simp [Statement, encode, cmdWord_fields]
theorem cfgBlock (n : Nat) : Statement (.cfgBlock n) := by
  simp [Statement, encode, cmdWord_fields]
theorem blockRead (n : Nat) : Statement (.blockRead n) := by
  simp [Statement, encode, cmdWord_fields]
theorem loadConfig : Statement .loadConfig := by
  simp [Statement, encode, cmdWord_fields]
theorem hex2bcd : Statement .hex2bcd := by
  simp [Statement, encode, cmdWord_fields]
theorem calrmsP (dir : Bool) : Statement (.calrmsP dir) := by
  simp [Statement, encode, cmdWord_fields]
theorem calrmsQ (dir : Bool) : Statement (.calrmsQ dir) := by
  simp [Statement, encode, cmdWord_fields]
theorem calrmsPb (dir : Bool) : Statement (.calrmsPb dir) := by
  simp [Statement, encode, cmdWord_fields]
theorem calrmsQb (dir : Bool) : Statement (.calrmsQb dir) := by
  simp [Statement, encode, cmdWord_fields]
theorem calrmsSa (dir : Bool) : Statement (.calrmsSa dir) := by
  simp [Statement, encode, cmdWord_fields]
theorem calrmsSb (dir : Bool) : Statement (.calrmsSb dir) := by
  simp [Statement, encode, cmdWord_fields]
theorem calrmsU (dir : Bool) : Statement (.calrmsU dir) := by
  simp [Statement, encode, cmdWord_fields]
theorem calrmsI1 (dir : Bool) : Statement (.calrmsI1 dir) := by
  simp [Statement, encode, cmdWord_fields]
theorem calrmsI2 (dir : Bool) : Statement (.calrmsI2 dir) := by
  simp [Statement, encode, cmdWord_fields]
theorem calrmsHz (dir : Bool) : Statement (.calrmsHz dir) := by
  simp [Statement, encode, cmdWord_fields]

end Sys2Proof.Laws.EncodingSize
end

