-- ==== Sys2Proof/Tests/Slice0.lean ====
section
/-! SUPPORT. Tests. Expected values are those of spec/95_test_vectors.md (the section stands in each comment) or are written
out from the encoding tables of spec/30_encoding.md. The witnesses at the end show states that meet the hypotheses of the
obligations. -/

namespace Sys2Proof.Tests

open Sys2Proof.Machine Sys2Proof.Spec

/-! ### States the tests start from -/

/-- Right after reset, with the example values of the OPEN parameters (95: conventions). -/
def vec : State := { State.reset with env := { Env.reset with cfg := Params.vectors } }

/-- UART at 9600 baud (95: conventions). -/
def uart : State := { vec with host := { vec.host with baud := 9600 } }

/-- SPI 4-wire at 1 MHz (95 P6). -/
def spi4 : State := { vec with host := { vec.host with baud := 1000000, wireMode := .spi4 } }

/-- DATA holds `v`. -/
def withData (v : Word) (s : State) : State := { s with host := { s.host with data := v } }

/-- CALCFG holds `c` (95 §2.6). -/
def withCalcfg (c : BitVec 5) (s : State) : State := { s with host := { s.host with calcfg := c } }

/-- The factors of 95 §2.6: PG = 2.0, IB = 5000, UN = 22000. -/
def cal : State := { vec with host := { vec.host with pg := 0x00020000, ib := 5000, un := 22000 } }

/-- The next state of an outcome. -/
def nextOf : Host.Outcome State Fault Refusal → Option State
  | .next t => some t
  | .fault _ => none
  | .refused _ => none

/-- What a command leaves of the pipeline: CAL_OUT, CAL_FLAGS, ERR. -/
def calView (o : Host.Outcome State Fault Refusal) : Option (Word × Word × Word) :=
  (nextOf o).map (fun t => (t.rpe.calOut, calFlagsWord t, errWord t.rpe))

/-- What an instruction hands to the engine: the frame and the response length. -/
def frameView (o : Host.Outcome State Fault Refusal) : Option (List Byte × Nat) :=
  (nextOf o).map (fun t => (t.st.txFrame, t.st.expN))

/-- ERR and STATUS. -/
def statusView (o : Host.Outcome State Fault Refusal) : Option (Word × Word) :=
  (nextOf o).map (fun t => (errWord t.rpe, statusWord t))

/-! ### WellFormed: each check refuses a term that fails it alone -/

theorem test_wf_wireWrite_addr : (Instr.wireWrite 0 0x80 0).wf = false := by decide
theorem test_wf_wireBroadcast_addr : (Instr.wireBroadcast 0 0x80 0).wf = false := by decide
theorem test_wf_wireRead_addr : (Instr.wireRead 1 0 0x80).wf = false := by decide
theorem test_wf_wireRead_count :
    (Instr.wireRead 0 0 0x04).wf = false ∧ (Instr.wireRead 17 0 0x04).wf = false := by decide
theorem test_wf_wireBlock_count : (Instr.wireBlock 0 0).wf = false ∧ (Instr.wireBlock 17 0).wf = false := by decide
theorem test_wf_read_count : (Instr.read 0 0x04).wf = false ∧ (Instr.read 17 0x04).wf = false := by decide
theorem test_wf_cfgBlock_count : (Instr.cfgBlock 0).wf = false ∧ (Instr.cfgBlock 17).wf = false := by decide
theorem test_wf_blockRead_count : (Instr.blockRead 0).wf = false ∧ (Instr.blockRead 17).wf = false := by decide

/-! ### Every constructor's word, bit by bit: NM1, DEV, OP of CMD1 (R73); reserved, DIR, ARG8, NM1, OP of CMD (R80) -/

theorem test_decode_wireWrite :
    decodeBody [0b0000_01_10, 0x04, 0x23, 0x27, 0x00, 0x00] = .ok (.wireWrite 1 0x04 0x00002723, []) := by decide
theorem test_decode_wireBroadcast :
    decodeBody [0b0000_10_00, 0x10, 0x78, 0x56, 0x34, 0x12] = .ok (.wireBroadcast 2 0x10 0x12345678, []) := by decide
theorem test_decode_wireRead : decodeBody [0b1111_11_01, 0x08] = .ok (.wireRead 16 3 0x08, []) := by decide
theorem test_decode_wireBlock : decodeBody [0b1001_01_11, 0x00] = .ok (.wireBlock 10 1, []) := by decide
theorem test_decode_read :
    decodeCmd 0b000000000000000_0_00000100_1111_0001 = .ok (.read 16 0x04) := by decide
theorem test_decode_write : decodeCmd 0b000000000000000_0_10000101_0000_0010 = .ok (.write 0x85) := by decide
theorem test_decode_broadcast : decodeCmd 0b000000000000000_0_00010000_0000_0011 = .ok (.broadcast 0x10) := by decide
theorem test_decode_cfgBlock : decodeCmd 0b000000000000000_0_00000000_1001_0100 = .ok (.cfgBlock 10) := by decide
theorem test_decode_blockRead : decodeCmd 0b000000000000000_0_00000000_0000_0101 = .ok (.blockRead 1) := by decide
theorem test_decode_loadConfig : decodeCmd 0b000000000000000_0_00000000_0000_0110 = .ok .loadConfig := by decide
theorem test_decode_hex2bcd : decodeCmd 0b000000000000000_0_00000000_0000_0111 = .ok .hex2bcd := by decide
theorem test_decode_calrmsP : decodeCmd 0b000000000000000_1_00000000_0000_1000 = .ok (.calrmsP true) := by decide
theorem test_decode_calrmsQ : decodeCmd 0b000000000000000_0_00000001_0000_1000 = .ok (.calrmsQ false) := by decide
theorem test_decode_calrmsPb : decodeCmd 0b000000000000000_1_00000010_0000_1000 = .ok (.calrmsPb true) := by decide
theorem test_decode_calrmsQb : decodeCmd 0b000000000000000_0_00000011_0000_1000 = .ok (.calrmsQb false) := by decide
theorem test_decode_calrmsSa : decodeCmd 0b000000000000000_0_00000100_0000_1000 = .ok (.calrmsSa false) := by decide
theorem test_decode_calrmsSb : decodeCmd 0b000000000000000_0_00000101_0000_1000 = .ok (.calrmsSb false) := by decide
theorem test_decode_calrmsU : decodeCmd 0b000000000000000_0_00000110_0000_1000 = .ok (.calrmsU false) := by decide
theorem test_decode_calrmsI1 : decodeCmd 0b000000000000000_0_00000111_0000_1000 = .ok (.calrmsI1 false) := by decide
theorem test_decode_calrmsI2 : decodeCmd 0b000000000000000_0_00001000_0000_1000 = .ok (.calrmsI2 false) := by decide
theorem test_decode_calrmsHz : decodeCmd 0b000000000000000_0_00001001_0000_1000 = .ok (.calrmsHz false) := by decide

/-- 95 §2.4, rows 1 to 8: ill-formed words, each for its own reason. -/
theorem test_decode_rejects :
    decodeCmd 0x00000000 = .error .reservedOp ∧ decodeCmd 0x0000000F = .error .reservedOp
    ∧ decodeCmd 0x00020007 = .error .reservedBits ∧ decodeCmd 0x00010001 = .error .unusedField
    ∧ decodeCmd 0x00000012 = .error .unusedField ∧ decodeCmd 0x00000104 = .error .unusedField
    ∧ decodeCmd 0x00000016 = .error .unusedField ∧ decodeCmd 0x00000A08 = .error .reservedKind := by decide

/-- R71, R75, R76, R78: frames that are none. -/
theorem test_decode_frame_rejects :
    decodeFrame true [0x7E, 0x01, 0x04, 0x2D] = .error .noHeader
    ∧ decodeFrame true [0x7D, 0x01, 0x04, 0x2E] = .error .badChecksum
    ∧ decodeFrame true [0x7D, 0x01, 0x84, 0xAD] = .error .wireCmd2
    ∧ decodeFrame false [0x12, 0x04, 0, 0, 0, 0, 0x1C] = .error .wireCount
    ∧ decodeFrame false [0x03, 0x01, 0x2E] = .error .blockCmd2
    ∧ decodeFrame false [0x01, 0x04] = .error .frameTooShort
    ∧ decodeFrame false [0x01, 0x04, 0x2D, 0x00] = .error .trailingBytes := by decide

/-- The table's own bit numbering (log 8): CMD1 = 0xFD alone, and a whole CMD word. -/
theorem test_table_word :
    decodeTableWord 8 0xFD = some (.wireRead 16 3 0x00) ∧ decodeTableWord 32 0x00000908 = some (.calrmsHz false)
    ∧ decodeTableWord 8 0x12 = none := by decide

/-! ### FrameCodec (95 §2.1, §2.2) -/

theorem test_checksum : frameChecksum [] = 0x32 ∧ frameChecksum [0x02, 0, 0, 0, 0, 0] = 0x30 := by decide
theorem test_encodeWrite :
    encodeWrite true 3 0x04 0x00002723 = [0x7D, 0x0E, 0x04, 0x23, 0x27, 0x00, 0x00, 0xD6]
    ∧ encodeWrite false 0 0x85 0x00000001 = [0x02, 0x05, 0x01, 0x00, 0x00, 0x00, 0x2A] := by decide
theorem test_decodeReadResp :
    decodeReadResp 0x01 0x04 1 [0x23, 0x27, 0x00, 0x00, 0xE3] = some [0x00002723]
    ∧ decodeReadResp 0x01 0x04 1 [0x23, 0x27, 0x00, 0x00, 0xE8] = none
    ∧ decodeReadResp 0x21 0x10 3 [1, 0, 0, 0, 2, 0, 0, 0, 3, 0, 0, 0, 0xFB] = some [1, 2, 3]
    ∧ decodeBlockResp 0x17 2 [0x44, 0x33, 0x22, 0x11, 1, 0, 0, 0, 0x70] = some [0x11223344, 1] := by decide
theorem test_decodeWriteResp :
    decodeWriteResp [0x7D, 0x02, 0x04, 0x23, 0x27, 0x00, 0x00, 0xE2] [0xE2] = some []
    ∧ decodeWriteResp [0x7D, 0x02, 0x04, 0x23, 0x27, 0x00, 0x00, 0xE2] [0xE3] = none := by decide

/-! ### The wire operations (95 §2.1) -/

theorem test_wireWrite :
    frameView (exec (.wireWrite 0 0x04 0x00002723) uart)
      = some ([0x7D, 0x02, 0x04, 0x23, 0x27, 0x00, 0x00, 0xE2], 1) := by decide
theorem test_wireBroadcast :
    frameView (exec (.wireBroadcast 2 0x10 0x12345678) uart)
      = some ([0x7D, 0x08, 0x10, 0x78, 0x56, 0x34, 0x12, 0x06], 0) := by decide
theorem test_wireRead : frameView (exec (.wireRead 16 3 0x08) uart) = some ([0x7D, 0xFD, 0x08, 0x2D], 65) := by decide
theorem test_wireBlock : frameView (exec (.wireBlock 16 3) spi4) = some ([0xFF, 0x00, 0x33], 65) := by decide

/-! ### The bus interface's answers (R57) -/

theorem test_bad_accesses :
    (nextOf (agentStep (.hostRead 0x008 2) vec)).map (fun t => t.env.bus) = some (.readError 0x00000000)
    ∧ (nextOf (agentStep (.hostRead 0x009 4) vec)).map (fun t => t.env.bus) = some (.readError 0x00000000)
    ∧ (nextOf (agentStep (.hostWrite 0x008 8 0) vec)).map (fun t => (t.env.bus, t.host.calcfg))
      = some (.writeError, 1) := by decide

/-! ### The parameters (R7) -/

theorem test_params_ranges :
    ({ opn := OpenParams.vectors } : ParamValues).wf = true
    ∧ ({ opn := OpenParams.vectors, resetLowUs := 70000 } : ParamValues).wf = false
    ∧ ({ opn := { OpenParams.vectors with addrDspCfgCksum := 0x25 } } : ParamValues).wf = false
    ∧ ({ opn := OpenParams.vectors, mirrorPairs := [(0x25, 0x26), (0x26, 0x27)] } : ParamValues).wf = false := by decide
/-- An address beyond seven bits is for the SPI modes alone. -/
theorem test_params_uart :
    ({ opn := OpenParams.vectors, postCksumWrites := [(0xB0, 7)] } : ParamValues).wf = false
    ∧ ({ opn := { OpenParams.vectors with addrSysBlkUart := #v[0xF0, 0x71, 0x72, 0x73] } } : ParamValues).wf = false
    ∧ ({ opn := { OpenParams.vectors with addrSysBlk := #v[0xF0, 0x71, 0x72, 0x73] } } : ParamValues).wf = true := by
  decide

/-! ### The bus commands (95 §2.4, §2.5, P1–P3, P6) -/

theorem test_read : frameView (exec (.read 1 0x04) uart) = some ([0x7D, 0x01, 0x04, 0x2D], 5) := by decide
/-- P6: the switch to ON goes first. -/
theorem test_read_switches :
    frameView (exec (.read 1 0x85) spi4) = some ([0x02, 0x7F, 0x5A, 0xA5, 0x00, 0x00, 0xB2], 1) := by decide
theorem test_write :
    frameView (exec (.write 0x04) (withData 0x2723 uart))
      = some ([0x7D, 0x02, 0x04, 0x23, 0x27, 0x00, 0x00, 0xE2], 1) := by decide
/-- 95 §2.4 row 16. -/
theorem test_write_range : statusView (exec (.write 0x80) uart) = some (0x00000004, 0x00002002) := by decide
theorem test_broadcast :
    frameView (exec (.broadcast 0x7F) (withData 0x5A5A spi4))
      = some ([0x00, 0x7F, 0x5A, 0x5A, 0x00, 0x00, 0xFF], 0) := by decide
theorem test_broadcast_range : statusView (exec (.broadcast 0x80) spi4) = some (0x00000004, 0x00002002) := by decide
theorem test_cfgBlock :
    frameView (exec (.cfgBlock 10)
        { uart with host := { uart.host with blkList := #v[0x0B0A0908, 0x0F0E0D0C, 0x00001110, 0] } })
      = some ([0x7D, 0x02, 0x70, 0x08, 0x09, 0x0A, 0x0B, 0x9A], 1) := by decide
theorem test_blockRead :
    frameView (exec (.blockRead 10) { uart with st := { uart.st with blkValid := true, blkCount := 10 } })
      = some ([0x7D, 0x93, 0x00, 0x9F], 41) := by decide
/-- P3: `blkrd 8` does not match the handle. -/
theorem test_blockRead_mismatch :
    (nextOf (exec (.blockRead 8) { uart with st := { uart.st with blkValid := true, blkCount := 10 } })).map
      (fun t => (errWord t.rpe, t.st.blkCount)) = some (0x00000004, 10) := by decide
/-- P2: LAST_CKSUM at acceptance, and step 0. -/
theorem test_loadConfig :
    (nextOf (exec .loadConfig
        { uart with host := { uart.host with cfgImage := uart.host.cfgImage.set 0 0x10 } })).map
      (fun t => (t.rpe.lastCksum, t.st.txFrame, t.st.seqList.length))
      = some (0xFFFFFFEF, [0x7D, 0x02, 0x00, 0x10, 0x00, 0x00, 0x00, 0x20], 31) := by decide
/-- 95 §2.4 row 10: BAUD = 0. -/
theorem test_loadConfig_no_baud : statusView (exec .loadConfig vec) = some (0x00000004, 0x00002002) := by decide

/-! ### The calibration pipeline (95 §1.3, §1.4, §2.6) -/

theorem test_hex2bcd : calView (exec .hex2bcd (withData 0x00BC614E vec)) = some (0x12345678, 0, 0) := by decide
theorem test_hex2bcd_wraps : calView (exec .hex2bcd (withData 0xFFFFFFFF vec)) = some (0x94967295, 0x04, 0) := by decide
theorem test_calrmsP : calView (exec (.calrmsP false) (withData 0xFFFFFFFD cal)) = some (0x00800015, 0x103, 0) := by decide
theorem test_calrmsP_dir :
    calView (exec (.calrmsP true) (withCalcfg 0x11 (withData 0x000000C8 cal))) = some (0x00801000, 0x01, 0) := by decide
theorem test_calrmsQ : calView (exec (.calrmsQ false) (withData 0x64 cal)) = some (0x00000500, 0, 0) := by decide
theorem test_calrmsPb :
    calView (exec (.calrmsPb false) (withCalcfg 0x5 (withData 0xFFFFFF38 cal))) = some (0x00801800, 0x01, 0) := by decide
/-- PG_B = 0 creeps, and the flag is kept in CREEP_B. -/
theorem test_calrmsPb_zero :
    calView (exec (.calrmsPb false)
        (withCalcfg 0x5 (withData 1 { cal with host := { cal.host with pg := 1 } }))) = some (0, 0x212, 0) := by decide
theorem test_calrmsQb : calView (exec (.calrmsQb false) (withData 0 cal)) = some (0, 0x02, 0) := by decide
theorem test_calrmsSa :
    calView (exec (.calrmsSa false) (withData 0x4D2 { cal with host := { cal.host with sRatio := 0x00010000 } }))
      = some (0x00012340, 0, 0) := by decide
/-- No CREEP for SA. -/
theorem test_calrmsSa_zero : calView (exec (.calrmsSa false) (withData 0 cal)) = some (0, 0x10, 0) := by decide
theorem test_calrmsSb :
    calView (exec (.calrmsSb false) (withData 0xFFFFFFFF { cal with host := { cal.host with sRatio := 0x00010000 } }))
      = some (0x00800010, 0x01, 0) := by decide
/-- Not negated, no SIGN. -/
theorem test_calrmsU :
    calView (exec (.calrmsU false) (withData 0x80000000 { cal with host := { cal.host with urmg := 0x00010000 } }))
      = some (0x74836480, 0x04, 0) := by decide
/-- q = I_SUPPRESS_TH is kept; one step of DATA below is suppressed. -/
theorem test_calrmsI1 :
    let s : State := withCalcfg 0x3
      { cal with
        host := { cal.host with i1rmg := 0x00010000, iSuppressTh := 100 }
        st := { cal.st with creepA := true } }
    calView (exec (.calrmsI1 false) (withData 9 s)) = some (0, 0x108, 0)
      ∧ calView (exec (.calrmsI1 false) (withData 10 s)) = some (0x00000100, 0x100, 0) := by decide
theorem test_calrmsI2 :
    calView (exec (.calrmsI2 false) (withData 7 { cal with host := { cal.host with i2rmg := 0x00008000 } }))
      = some (0x00000140, 0, 0) := by decide
theorem test_calrmsI2_zero :
    calView (exec (.calrmsI2 false) (withCalcfg 0x3 (withData 7
        { cal with host := { cal.host with iSuppressTh := 1 }, st := { cal.st with creepB := true } })))
      = some (0, 0x218, 0) := by decide
theorem test_calrmsHz :
    calView (exec (.calrmsHz false) (withCalcfg 0x9 (withData 3200 { cal with host := { cal.host with freqConst := 1000 } })))
      = some (0x00002000, 0, 0) := by decide
/-- The divisor is raw, not FREQ_CONST. -/
theorem test_calrmsHz_zero :
    calView (exec (.calrmsHz false) (withData 0 { cal with host := { cal.host with freqConst := 1000 } }))
      = some (0, 0x10, 0) := by decide

/-! ### The agents (95 §2.3, §2.4, §2.7) -/

/-- WRITE 0x04 in AWAITING, with this FIFO and this wait counter. -/
def awaitingEcho (fifo : List Byte) (ticks : Word) : State :=
  { uart with
    rpe := { uart.rpe with lock := true }
    st := { uart.st with
      cmd := 0x00000402, seqOwner := .host, seqList := [⟨.write, 0x04, 0x2723, .cmd⟩]
      engState := .awaiting, txFrame := [0x7D, 0x02, 0x04, 0x23, 0x27, 0x00, 0x00, 0xE2], txIdx := 8, expN := 1
      rxFifo := fifo, waitTicks := ticks } }

/-- 95 §2.3: the tie goes to the byte. -/
theorem test_engine_tie :
    statusView (agentStep (.engine false) (awaitingEcho [0xE2] 1606)) = some (0, 0x00002202) := by decide
/-- P1b: the wrong echo. -/
theorem test_engine_mismatch :
    statusView (agentStep (.engine false) (awaitingEcho [0xE3] 0)) = some (0x00000001, 0x00002602) := by decide
/-- One tick short of T_us(1), and the timeout. -/
theorem test_engine_timeout :
    statusView (agentStep (.engine false) (awaitingEcho [] 1605)) = some (0, 0x00802201)
    ∧ statusView (agentStep (.engine false) (awaitingEcho [] 1606)) = some (0x00000002, 0x00002602) := by decide
/-- The third failure (R168): STATUS of P4. -/
theorem test_engine_third_failure :
    statusView (agentStep (.engine false)
        { awaitingEcho [] 1606 with st := { (awaitingEcho [] 1606).st with failCount := 2 } })
      = some (0x00000002, 0x0100220E) := by decide
/-- 95 §2.3: guard and timeout quantities. -/
theorem test_timing :
    guardUs Params.vectors uart.host = 2084 ∧ guardUs Params.vectors spi4.host = 50
    ∧ timeoutUs Params.vectors uart.host 5 = 8021 ∧ timeoutUs Params.vectors spi4.host 65 = 728
    ∧ ticks 0 = 0 ∧ ticks 71000 = 71001 := by decide
/-- 95 §2.4: WIRE_MODE = 3 is not taken, and STATUS clears its W1C bits only. -/
theorem test_host_writes :
    (nextOf (agentStep (.hostWrite 0x000 4 0x0000000E) vec)).map (fun t => (t.host.devAddr, t.host.wireMode))
      = some (2, .uart)
    ∧ (nextOf (agentStep (.hostWrite 0x014 4 0xFFFFFFFF)
        { vec with rpe := { vec.rpe with
          done := true, unhealthyEvt := true, recovered := true, recoveryFailed := true, cmdOverrun := true
          wrLocked := true, lock := true } })).map statusWord = some 0x00002200 := by decide
/-- 95 §2.7: STATUS and CALCFG after `rst`. -/
theorem test_reset :
    csrRead State.reset (csrAt 0x014) = 0x00002000 ∧ csrRead State.reset (csrAt 0x008) = 1
    ∧ csrRead State.reset (csrAt 0x1A0) = 0 := by decide

/-- A host row and a wire row placed as the first instruction run as themselves (log 8). -/
theorem test_fetch :
    calView (step (vec.withFetchWord 32 0x00000007)) = calView (exec .hex2bcd vec)
    ∧ frameView (step (vec.withFetchWord 8 0xFD)) = some ([0x7D, 0xFD, 0x00, 0x35], 65) := by decide

/-! ### Witnesses -/

/-- READ 0x04 under way, in GUARD. -/
def busyRead : State := (nextOf (exec (.read 1 0x04) uart)).getD uart

/-- The same READ in another engine state. -/
def readIn (e : EngState) : State := { busyRead with st := { busyRead.st with engState := e } }

/-- The same READ, ended with this outcome and these words. -/
def readEnded (o : TxOutcome) (words : List Word) : State :=
  { busyRead with st := { busyRead.st with engState := .hold, outcome := o, respWords := words } }

/-- The command `w` with one descriptor, ended with this outcome. -/
def commandEnded (w : Word) (d : Descriptor) (o : TxOutcome) : State :=
  { readEnded o [] with st := { (readEnded o []).st with cmd := w, seqList := [d] } }

/-- A recovery in one of its phases before RELOAD. -/
def recovering (p : RecPhase) : State :=
  { uart with
    rpe := { uart.rpe with resetting := true, lock := true }
    st := { uart.st with recPhase := p, lineLow := decide (p = .low) } }

/-- A recovery at the last write of a short reload. -/
def reloading (o : TxOutcome) : State :=
  { recovering .reload with st := { (recovering .reload).st with
    seqOwner := .recovery, seqList := [⟨.write, 0x3B, 0xFFFFFFFF, .config⟩], engState := .hold, outcome := o } }

/-- Parameters with a mirror pair and a post-checksum write. -/
def mirrored : Params where
  mirrorPairs := [(0x25, 0x26)]
  postCksumWrites := [(0xB0, 7)]
  postCksumWritesUart := [(0x30, 7)]
  opn := OpenParams.vectors

theorem witness_DecodeUndoesEncode :
    (Instr.wireRead 16 3 0x7F).wf = true ∧ (Instr.read 1 0xFF).wf = true := by decide
theorem witness_EncodeUndoesDecode : decodeCmd 0x00010008 = .ok (.calrmsP true) := by decide
theorem witness_FramesRoundTrip :
    (Instr.wireRead 16 3 0x7F).wf = true ∧ encode (.wireRead 16 3 0x7F) = .wire [0xFD, 0x7F] := by decide
theorem witness_CorruptionIsDetected :
    ([0x02, 0x04] : List Byte)[1]? = some 0x04
    ∧ ([0x23, 0x27, 0x00, 0x00, 0xE3] : List Byte).length = 4 * 1 + 1
    ∧ decodeReadResp 0x01 0x04 1 [0x23, 0x27, 0x00, 0x00, 0xE3] = some [0x00002723]
    ∧ ([0x23, 0x27, 0x00, 0x00, 0xE3] : List Byte)[0]? = some 0x23
    ∧ ([0x23, 0x27, 0x00, 0x00, 0xE3] : List Byte)[4]? = some 0xE3 ∧ (0xE3 : Byte) ≠ 0xE4 := by decide
theorem witness_EncodersBuildTheirFrames : (1 ≤ 1 ∧ 1 ≤ 16) ∧ (1 ≤ 16 ∧ 16 ≤ 16) := by decide
theorem witness_DecodersJudgeTheResponse :
    ([0x7D, 0x02, 0x04, 0xE2] : List Byte).getLast? = some 0xE2
    ∧ (List.replicate 65 (0 : Byte)).length = 4 * 16 + 1 := by decide
theorem witness_BlockResetTakesEveryValue :
    (0x008 : BitVec 12).toNat % 4 = 0 ∧ (0x014 : BitVec 12).toNat % 4 = 0 ∧ (0xFFC : BitVec 12).toNat % 4 = 0 := by
  decide
theorem witness_ResetHoldsTheMachine :
    ({ vec with env := { vec.env with rst := true } } : State).env.rst = true
    ∧ (0xFFC : BitVec 12).toNat % 4 = 0 := by decide
theorem witness_ReadsHaveNoSideEffect : running busyRead := by decide
theorem witness_WindowReads :
    running uart
    ∧ ([0x000, 0x004, 0x008, 0x00C, 0x010, 0x014, 0x018, 0x01C, 0x020, 0x024, 0x028, 0x02C, 0x030, 0x180, 0x184, 0x188, 0x18C,
        0x190, 0x194, 0x198, 0x19C, 0x1A0] : List (BitVec 12)).all (fun off => decide (off.toNat % 4 = 0)) = true
    ∧ (0x040 : BitVec 12).toNat = 0x040 + 4 * 0 ∧ (0x07C : BitVec 12).toNat = 0x040 + 4 * 15
    ∧ (0x08C : BitVec 12).toNat = 0x080 + 4 * 3 ∧ (0x174 : BitVec 12).toNat = 0x100 + 4 * 29
    ∧ reservedOffset 0x034 ∧ reservedOffset 0x03C ∧ reservedOffset 0x090 ∧ reservedOffset 0x0FC
    ∧ reservedOffset 0x178 ∧ reservedOffset 0x17C ∧ reservedOffset 0x1A4 ∧ reservedOffset 0xFFC := by decide
theorem witness_StatusShowsItsFields :
    ({ vec with st := { vec.st with failCount := 3, blkCount := 31 } } : State).st.failCount ≤ 3
    ∧ ({ vec with st := { vec.st with failCount := 3, blkCount := 31 } } : State).st.blkCount ≤ 31 := by decide
theorem witness_BadAccessesAreErrors :
    running vec ∧ ((2 : Nat) ≠ 4 ∨ (0x014 : BitVec 12).toNat % 4 ≠ 0)
    ∧ ((4 : Nat) ≠ 4 ∨ (0x016 : BitVec 12).toNat % 4 ≠ 0) := by decide
theorem witness_LockedWritesAreRefused :
    running busyRead ∧ running (recovering .low)
    ∧ (deviceOffset 0x000 ∧ busyRead.rpe.lock = true) ∧ (deviceOffset 0x004 ∧ busyRead.rpe.lock = true)
    ∧ (operandOffset 0x008 ∧ busyRead.st.seqOwner = .host) ∧ (operandOffset 0x1A0 ∧ busyRead.st.seqOwner = .host)
    ∧ (imageOffset 0x100 ∧ busyRead.st.seqOwner = .host) ∧ (imageOffset 0x174 ∧ (recovering .low).rpe.resetting = true)
    ∧ ([0x014, 0x01C, 0x020, 0x024, 0x00C] : List (BitVec 12)).all (fun off => decide (off.toNat % 4 = 0)) = true := by
  decide
theorem witness_OpenWritesAreStored :
    running vec ∧ (0x004 : BitVec 12).toNat = 0x004 ∧ vec.rpe.lock = false
    ∧ operandOffset 0x008 ∧ operandOffset 0x080 ∧ operandOffset 0x1A0 ∧ vec.st.seqOwner ≠ .host
    ∧ imageOffset 0x100 ∧ imageOffset 0x174 ∧ vec.rpe.resetting = false
    ∧ (0x01C : BitVec 12).toNat = 0x01C ∧ (0x020 : BitVec 12).toNat = 0x020 ∧ (0x024 : BitVec 12).toNat = 0x024
    ∧ readOnlyOffset 0x018 ∧ readOnlyOffset 0x07C ∧ reservedOffset 0x034 ∧ reservedOffset 0xFFC := by decide
theorem witness_WireModeKeepsALegalValue : running spi4 ∧ spi4.rpe.lock = false := by decide
theorem witness_StatusWritesClearFlags : running busyRead ∧ (0x018 : BitVec 12).toNat % 4 = 0 := by decide
theorem witness_CommandWhileBusyIsDropped :
    running busyRead ∧ busyRead.st.seqOwner = .host
    ∧ running (recovering .low) ∧ (recovering .low).st.seqOwner ≠ .host := by decide
theorem witness_IllFormedWordsAreBadCommands :
    running (recovering .low) ∧ (recovering .low).st.seqOwner ≠ .host
    ∧ ¬ wellFormedWord 0x00020007 ∧ ¬ wellFormedWord 0x00000A08 ∧ ¬ wellFormedWord 0 := by
  unfold wellFormedWord; decide
theorem witness_BusCommandsNeedAHealthyTimedDevice :
    (recovering .low).st.seqOwner ≠ .host ∧ (recovering .low).rpe.resetting = true
    ∧ vec.st.seqOwner ≠ .host ∧ vec.rpe.resetting = false ∧ vec.host.baud = 0
    ∧ encode (.read 16 0x04) = .cmd 0x000004F1 ∧ (Instr.read 16 0x04).wf = true
    ∧ encode .loadConfig = .cmd 0x00000006 ∧ Instr.loadConfig.wf = true := by decide
theorem witness_RangeViolationsAreRejected :
    uart.st.seqOwner ≠ .host ∧ uart.rpe.resetting = false ∧ uart.host.baud ≠ 0
    ∧ spi4.st.seqOwner ≠ .host ∧ spi4.rpe.resetting = false ∧ spi4.host.baud ≠ 0
    ∧ uart.host.wireMode = .uart ∧ 0x7F < (0x71 : Byte).toNat + 16 - 1 ∧ 0x7F < (0x80 : Byte).toNat + 1 - 1
    ∧ spi4.host.wireMode ≠ .uart ∧ 0xFE < (0xF0 : Byte).toNat + 16 - 1
    ∧ ((0x78 : Byte).toNat < 0x80 ∧ 0x7F < (0x78 : Byte).toNat + 16 - 1)
    ∧ uart.st.blkValid = false := by decide
theorem witness_ReadStartsItsTransaction :
    ready uart ∧ uart.host.wireMode = .uart ∧ (0x70 : Byte).toNat + 16 - 1 ≤ 0x7F
    ∧ ready spi4 ∧ spi4.host.wireMode ≠ .uart
    ∧ ((0xEF : Byte).toNat + 16 - 1 ≤ 0xFE ∧ 0x80 ≤ (0xEF : Byte).toNat)
    ∧ ((0x7F : Byte).toNat + 1 - 1 ≤ 0xFE ∧ (0x7F : Byte).toNat + 1 - 1 ≤ 0x7F) := by decide
theorem witness_WriteAndBroadcastStartTheirTransactions :
    ready uart ∧ uart.host.wireMode = .uart ∧ (0x7F : Byte).toNat ≤ 0x7F
    ∧ ready spi4 ∧ spi4.host.wireMode ≠ .uart ∧ (0xFE : Byte) ≠ 0xFF := by decide
theorem witness_CfgBlockStartsItsWrites : (1 ≤ 1 ∧ 1 ≤ 16) ∧ (1 ≤ 16 ∧ 16 ≤ 16) ∧ ready uart ∧ ready spi4 := by decide
theorem witness_BlockReadStartsItsTransaction :
    let s : State := { uart with st := { uart.st with blkValid := true, blkCount := 16 } }
    1 ≤ 16 ∧ 16 ≤ 16 ∧ ready s ∧ s.st.blkValid = true ∧ s.st.blkCount = 16 := by decide
theorem witness_LoadConfigStartsItsWrites : ready uart ∧ ready spi4 := by decide
theorem witness_WireOperationsLoadTheirFrames :
    (1 ≤ 16 ∧ 16 ≤ 16) ∧ uart.st.engState = .idle ∧ busyRead.st.engState ≠ .idle := by decide
theorem witness_Hex2bcdResult : (recovering .low).st.seqOwner ≠ .host := by decide
theorem witness_SignedKindsResult : cal.st.seqOwner ≠ .host := by decide
theorem witness_UnsignedKindsResult : (reloading .none).st.seqOwner ≠ .host := by decide
theorem witness_FrequencyResult : cal.st.seqOwner ≠ .host := by decide
theorem witness_BcdNibblesAreDigits : 7 < 8 ∧ 99999999 < 10 ^ 8 ∧ 0 < 10 ^ 8 := by decide
theorem witness_TickCounts : running busyRead := by decide
theorem witness_ChannelBytes :
    running (readIn .sending) ∧ (readIn .sending).st.engState = .sending
    ∧ (readIn .sending).st.txFrame[(readIn .sending).st.txIdx]? = some 0x7D
    ∧ busyRead.st.engState ≠ .sending
    ∧ (let s : State := { readIn .sending with st := { (readIn .sending).st with txIdx := 4 } }
       running s ∧ s.st.txFrame.length ≤ s.st.txIdx)
    ∧ (List.replicate 64 (0 : Byte)).length < 65 ∧ 65 ≤ (List.replicate 65 (0 : Byte)).length := by decide
theorem witness_SendingOutlivesTheHost :
    running (readIn .sending) ∧ (readIn .sending).st.engState = .sending
    ∧ (nextOf (agentStep (.engine false) (readIn .sending))).isSome = true := by decide
theorem witness_EngineStatesTakeTheirTime :
    running (readIn .guard) ∧ busyRead.host.baud ≠ 0 ∧ (readIn .guard).st.engState = .guard
    ∧ (readIn .setup).st.engState = .setup ∧ (readIn .sending).st.engState = .sending
    ∧ (readIn .hold).st.engState = .hold := by decide
theorem witness_AwaitingJudgesItsResponse :
    (let s := awaitingEcho [0xE2] 0
     let d : Descriptor := ⟨.write, 0x04, 0x2723, .cmd⟩
     running s ∧ s.st.engState = .awaiting ∧ s.st.txFrame = frame s d ∧ s.st.expN = responseLength d
      ∧ s.st.expN ≤ s.st.rxFifo.length ∧ d.op = .write)
    ∧ (let s : State := { readIn .awaiting with
          st := { (readIn .awaiting).st with rxFifo := [0x23, 0x27, 0x00, 0x00, 0xE3] } }
       let d : Descriptor := ⟨.read, 0x04, 1, .cmd⟩
       running s ∧ s.st.engState = .awaiting ∧ s.st.txFrame = frame s d ∧ s.st.expN = responseLength d
        ∧ s.st.expN ≤ s.st.rxFifo.length ∧ d.v = BitVec.ofNat 32 1 ∧ d.op = .read) := by decide
theorem witness_AwaitingTimesOut :
    running (awaitingEcho [] 1606) ∧ (awaitingEcho [] 1606).st.engState = .awaiting
    ∧ (awaitingEcho [] 1606).host.baud ≠ 0
    ∧ (awaitingEcho [] 1606).st.rxFifo.length < (awaitingEcho [] 1606).st.expN := by decide
theorem witness_LastTransactionCompletesItsCommand :
    let d : Descriptor := ⟨.read, 0x04, 1, .cmd⟩
    let s := readEnded .complete [0x2723]
    let b : Descriptor := ⟨.bcast, 0x10, 1, .cmd⟩
    let u := commandEnded 0x00001003 b .completeNoCheck
    let w : Descriptor := ⟨.write, 0x73, 0, .blkcfg⟩
    let v := commandEnded 0x00000094 w .complete
    (s.st.seqOwner = .host ∧ s.st.seqList[s.st.seqStep]? = some d ∧ s.st.seqStep + 1 = s.st.seqList.length ∧ good s d
      ∧ decodeCmd s.st.cmd = .ok (.read 1 0x04) ∧ 1 ≤ s.st.respWords.length)
    ∧ (u.st.seqOwner = .host ∧ u.st.seqList[u.st.seqStep]? = some b ∧ u.st.seqStep + 1 = u.st.seqList.length ∧ good u b
      ∧ decodeCmd u.st.cmd = .ok (.broadcast 0x10))
    ∧ (v.st.seqOwner = .host ∧ v.st.seqList[v.st.seqStep]? = some w ∧ v.st.seqStep + 1 = v.st.seqList.length ∧ good v w
      ∧ decodeCmd v.st.cmd = .ok (.cfgBlock 10)) := by decide
theorem witness_FailedTransactionEndsItsCommand :
    let s := readEnded .timedOut []
    s.st.seqOwner = .host ∧ s.st.seqList[s.st.seqStep]? = some ⟨.read, 0x04, 1, .cmd⟩ ∧ failing s.st.outcome
      ∧ isBusWord s.st.cmd = true ∧ s.st.failCount ≠ 2 := by decide
theorem witness_ThirdFailureStartsRecovery :
    let s : State := { readEnded .cksumMismatch [] with st := { (readEnded .cksumMismatch []).st with failCount := 2 } }
    s.st.seqOwner = .host ∧ s.st.seqList[s.st.seqStep]? = some ⟨.read, 0x04, 1, .cmd⟩ ∧ failing s.st.outcome
      ∧ isBusWord s.st.cmd = true ∧ s.st.failCount = 2 := by decide
theorem witness_NextDescriptorIsIssued :
    let d : Descriptor := ⟨.write, 0x00, 0, .config⟩
    let e : Descriptor := ⟨.write, 0x01, 0, .config⟩
    let s : State := { reloading .complete with st := { (reloading .complete).st with seqList := [d, e] } }
    s.st.seqList[s.st.seqStep]? = some d ∧ s.st.seqList[s.st.seqStep + 1]? = some e ∧ good s d := by decide
theorem witness_RecoveryPhasesFollow :
    running (recovering .preHigh) ∧ (recovering .preHigh).st.engState = .idle
    ∧ (recovering .preHigh).st.seqList[(recovering .preHigh).st.seqStep]? = none
    ∧ (recovering .preHigh).st.recPhase = .preHigh ∧ (recovering .low).st.recPhase = .low
    ∧ (recovering .postWait).st.recPhase = .postWait ∧ (recovering .reinit).st.recPhase = .reinit := by decide
theorem witness_RecoveryEnds :
    let d : Descriptor := ⟨.write, 0x3B, 0xFFFFFFFF, .config⟩
    (reloading .complete).st.seqOwner = .recovery
    ∧ (reloading .complete).st.seqList[(reloading .complete).st.seqStep]? = some d
    ∧ (reloading .complete).st.seqStep + 1 = (reloading .complete).st.seqList.length ∧ good (reloading .complete) d
    ∧ failing (reloading .timedOut).st.outcome := by decide
theorem witness_HostCannotTouchARecovery :
    running (recovering .low)
    ∧ (nextOf (agentStep (.hostWrite 0x00C 4 0x00000401) (recovering .low))).isSome = true
    ∧ (nextOf (agentStep (.hostRead 0x014 4) (recovering .low))).isSome = true
    ∧ running (reloading .none) ∧ (reloading .none).rpe.resetting = true
    ∧ (nextOf (agentStep (.hostWrite 0x00C 4 0x00000401) (reloading .none))).isSome = true := by decide
theorem witness_ConfigListOrder :
    (∀ p ∈ mirrored.mirrorPairs, p.2.toNat ≠ 0x25 + (8 - 8))
    ∧ (BitVec.ofNat 8 (0x25 + (8 - 8)), BitVec.ofNat 8 (0x25 + (9 - 8))) ∈ mirrored.mirrorPairs
    ∧ mirrored.postCksumWrites[0]? = some (0xB0, 7) ∧ mirrored.postCksumWritesUart[0]? = some (0x30, 7) :=
  ⟨by simp [mirrored], by simp [mirrored], by simp [mirrored]⟩
theorem witness_TimingScalesWithBaud :
    1 ≤ 1 ∧ 2 * 1 < 2 ^ 32 ∧ 2 * 2147483647 < 2 ^ 32 ∧ Params.vectors.bpbUart ≤ 11
    ∧ Params.vectors.bpbSpi ≤ 11 ∧ 65 ≤ 65 ∧ uart.host.baud ≠ 0
    ∧ ∀ us ∈ fixedTimes Params.vectors, us < 2 ^ 32 - 2 := by decide
theorem witness_LockedConfigurationStays :
    (nextOf (agentStep (.hostWrite 0x000 4 0x00000004) busyRead)).isSome = true ∧ running busyRead
    ∧ busyRead.rpe.lock = true := by decide
theorem witness_OperandsStayWhileTheyAreUsed :
    running busyRead ∧ (nextOf (agentStep (.hostWrite 0x010 4 1) busyRead)).isSome = true
    ∧ busyRead.st.seqOwner = .host
    ∧ running (recovering .low) ∧ (nextOf (agentStep (.hostWrite 0x100 4 1) (recovering .low))).isSome = true
    ∧ (recovering .low).rpe.resetting = true := by decide
/-- A CALRMS P that raises CREEP_A, a CALRMS PB that raises CREEP_B, and an engine step that writes RESULT. -/
theorem witness_ResultsChangeOnlyByTheirCommands :
    (nextOf (agentStep (.hostWrite 0x00C 4 0x00000008) cal)).map (fun t => t.st.creepA) = some true
    ∧ (nextOf (agentStep (.hostWrite 0x00C 4 0x00000208) cal)).map (fun t => t.st.creepB) = some true
    ∧ cal.st.creepA = false ∧ cal.st.creepB = false
    ∧ (nextOf (agentStep (.engine false) { readIn .awaiting with
        st := { (readIn .awaiting).st with rxFifo := [0x23, 0x27, 0x00, 0x00, 0xE3] } })).map
          (fun t => t.rpe.result[0]) = some 0x2723
    ∧ (readIn .awaiting).rpe.result[0] = 0
    ∧ (readIn .awaiting).st.seqOwner = .host ∧ decodeCmd (readIn .awaiting).st.cmd = .ok (.read 1 0x04) := by decide
theorem witness_BusyEndsWithDone :
    running (awaitingEcho [0xE2] 0) ∧ (awaitingEcho [0xE2] 0).st.recPhase = .none
    ∧ (awaitingEcho [0xE2] 0).st.seqOwner = .host
    ∧ (nextOf (agentStep (.engine false) (awaitingEcho [0xE2] 0))).map (fun t => decide (t.st.seqOwner ≠ .host))
      = some true := by decide

/-- A READ under way meets the invariant: EveryStepKeepsTheInvariant and InvariantStatesAlwaysRun speak of a machine at
work. -/
theorem witness_EveryStepKeepsTheInvariant :
    Inv busyRead ∧ (nextOf (step { busyRead with env := { busyRead.env with script := [.tick] } })).isSome = true := by
  refine ⟨?_, by decide⟩
  exact {
    uartAddrs := by decide
    failCount := by decide
    handle := by decide
    fifo := by decide
    owned := by decide
    unowned := fun h => absurd h (by decide)
    coherent := fun _ => ⟨⟨.read, 0x04, 1, .cmd⟩, by decide, by decide, by decide⟩
    counts := by decide
    hostRuns := by decide
    recoveryRuns := by decide
    health := by decide
    line := by decide
    locked := by decide
    baud := by decide
    offset := by decide
    txIdx := by decide
    chipSelect := by decide
    awaits := by decide
    held := by decide
    inReset := fun h => absurd h (by decide) }

theorem witness_InvariantStatesAlwaysRun : Inv busyRead := witness_EveryStepKeepsTheInvariant.1

/-- The same state's sequence is far below its bound, and it steps. -/
theorem witness_SequencesStayBounded :
    Inv busyRead ∧ sequenceBounded busyRead
    ∧ (nextOf (step { busyRead with env := { busyRead.env with script := [.engine false] } })).isSome = true :=
  ⟨witness_EveryStepKeepsTheInvariant.1, by unfold sequenceBounded; decide, by decide⟩

theorem witness_StepRunsTheInstruction :
    (let s : State := { uart with env := { uart.env with script := [.hostWrite 0x00C 4 0x00000401] } }
     running s ∧ nextEvent s = .hostWrite 0x00C 4 0x00000401 ∧ decodeCmd 0x00000401 = .ok (.read 1 0x04))
    ∧ (let d : Descriptor := ⟨.read, 0x04, 1, .cmd⟩
       let s : State := { readIn .idle with env := { busyRead.env with script := [.engine false] } }
       running s ∧ nextEvent s = .engine false ∧ s.st.engState = .idle ∧ currentDescriptor s = some d
        ∧ descriptorOk d = true
        ∧ decodeFrame s.host.uart (frameOf s.host.uart s.host.devAddr (issuedFor s d)) = .ok (.wireRead 1 0 0x04)
        ∧ decodeFrame s.host.uart (frame s (if mustSwitch s d then switchFor s d else d)) = .ok (.wireRead 1 0 0x04))
    ∧ (let d : Descriptor := ⟨.read, 0x84, 1, .cmd⟩
       let s : State := { spi4 with st := { spi4.st with seqList := [d] } }
       s.st.engState = .idle ∧ currentDescriptor s = some d ∧ descriptorOk d = true
        ∧ decodeFrame s.host.uart (frame s (if mustSwitch s d then switchFor s d else d))
          = .ok (.wireWrite 0 0x7F 0x0000A55A)) := by
  decide

end Sys2Proof.Tests
end

section
/-! PROOFS. Every step keeps the invariant of Safety.lean (O57). An update that leaves most of the invariant's fields alone
is proved by `{ h with … }`, which names the fields it touches. A transaction end passes through states that do not meet the
invariant, because the engine is IDLE while a sequence still has its owner: those meet `SequenceInv`. -/

namespace Sys2Proof

/-! ### What a command word decodes to -/

/-- The instruction is a command that the host can write to CMD: it has an encoding, and that is a command word. -/
def Instr.IsCommand (i : Instr) : Prop := i.wf = true ∧ ∃ v, encode i = .cmd v

theorem countOk_iff (n : Nat) : countOk n = true ↔ 1 ≤ n ∧ n ≤ 16 := by
  show _ ↔ 1 ≤ n ∧ n ≤ Config.blockMax
  simp [countOk]

/-- NM1 stands for a count of 1 to 16. -/
theorem countOk_countOf (nm1 : BitVec 4) : countOk (countOf nm1) = true :=
  (countOk_iff _).2 ⟨Nat.succ_pos _, nm1.isLt⟩

theorem whenUnused_eq_ok {b : Bool} {d : Decoded Instr} {i : Instr} (h : whenUnused b d = .ok i) : d = .ok i := by
  cases b
  · simp [whenUnused] at h
  · exact h

theorem calrmsOfKind_isCommand {k : Byte} {dir : Bool} {i : Instr} (h : calrmsOfKind k dir = .ok i) : i.IsCommand := by
  unfold calrmsOfKind at h
  split at h
  case h_11 => cases h
  all_goals
    cases h
    exact ⟨rfl, _, rfl⟩

/-- A command word never decodes to a wire operation, and its counts are in range (R80, R81, R83). -/
theorem decodeCmd_isCommand {w : Word} {i : Instr} (h : decodeCmd w = .ok i) : i.IsCommand := by
  unfold decodeCmd at h
  split at h
  case isFalse => cases h
  unfold decodeCmdOp at h
  split at h
  case h_8 => exact calrmsOfKind_isCommand (whenUnused_eq_ok h)
  case h_9 => cases h
  case h_1 | h_4 | h_5 =>
    cases whenUnused_eq_ok h
    exact ⟨countOk_countOf _, _, rfl⟩
  all_goals
    cases whenUnused_eq_ok h
    exact ⟨rfl, _, rfl⟩

end Sys2Proof

namespace Sys2Proof.Machine

/-- The words of the six bus commands (R80, R81) are bus words. -/
theorem isBusWord_cmdWord {op nm1 : BitVec 4} {arg8 : Byte}
    (h : op = 1 ∨ (op = 2 ∨ op = 3) ∧ nm1 = 0 ∨ (op = 4 ∨ op = 5) ∧ arg8 = 0 ∨ op = 6 ∧ nm1 = 0 ∧ arg8 = 0) :
    isBusWord (cmdWord op nm1 arg8 false) = true := by
  rcases h with rfl | ⟨rfl | rfl, rfl⟩ | ⟨rfl | rfl, rfl⟩ | ⟨rfl, rfl, rfl⟩ <;>
    simp [isBusWord, decodeCmd, decodeCmdOp, whenUnused, cmdWord_fields]

/-! ### The descriptor lists of the commands -/

theorem uart_iff (h : HostRegs) : h.uart = true ↔ h.wireMode = .uart := by
  simp [HostRegs.uart]

/-- What a list must meet to be run as a sequence in the wire mode in force. -/
structure Runnable (uart : Bool) (l : List Descriptor) : Prop where
  nonempty : l ≠ []
  addrs : uart = true → ∀ d ∈ l, d.a.toNat ≤ 0x7F
  counts : ∀ d ∈ l, descriptorOk d = true

theorem runnable_singleton {uart : Bool} {d : Descriptor} (ha : uart = true → d.a.toNat ≤ 0x7F)
    (hc : descriptorOk d = true) : Runnable uart [d] where
  nonempty := by simp
  addrs hu e he := List.mem_singleton.1 he ▸ ha hu
  counts e he := List.mem_singleton.1 he ▸ hc

/-- The word count of a descriptor is read back as it was put in (R119). -/
theorem countOk_ofNat {n : Nat} (h : countOk n = true) : countOk (BitVec.ofNat 32 n).toNat = true := by
  obtain ⟨-, hn⟩ := (countOk_iff n).1 h
  rwa [BitVec.toNat_ofNat, Nat.mod_eq_of_lt (by omega)]

/-- READ's range check keeps UART within seven bits (R124, R126). -/
theorem runnable_readList {h : HostRegs} {n : Nat} {a : Byte} (hn : countOk n = true)
    (hr : readRangeOk h n a = true) : Runnable h.uart (readList n a) := by
  refine runnable_singleton (fun hu => ?_) (countOk_ofNat hn)
  simp only [readRangeOk, hu, if_true, decide_eq_true_eq] at hr
  obtain ⟨hn, -⟩ := (countOk_iff n).1 hn
  show a.toNat ≤ 0x7F
  omega

/-- WRITE's range check keeps UART within seven bits (R124, R127). -/
theorem runnable_writeList {h : HostRegs} {a : Byte} (v : Word) (hr : writeRangeOk h a = true) :
    Runnable h.uart (writeList a v) :=
  runnable_singleton (fun hu => by simpa [writeRangeOk, hu] using hr) rfl

theorem runnable_bcastList (uart : Bool) {a : Byte} (v : Word) (hr : bcastRangeOk a = true) :
    Runnable uart (bcastList a v) :=
  runnable_singleton (fun _ => of_decide_eq_true hr) rfl

theorem runnable_blockList (uart : Bool) {n : Nat} (hn : countOk n = true) : Runnable uart (blockList n) :=
  runnable_singleton (fun _ => by simp) (countOk_ofNat hn)

/-- CFG_BLOCK writes the four SYS_BLK_ADDR registers, which R7 keeps within seven bits in UART (R129). -/
theorem runnable_cfgBlockList (c : Params) (uart : Bool) (blk : Vector Word 4) :
    Runnable uart (cfgBlockList c uart blk) where
  nonempty h := by simpa [cfgBlockList] using congrArg List.length h
  addrs hu d hd := by
    subst hu
    obtain ⟨p, hp, rfl⟩ := List.mem_map.1 hd
    exact sysBlkAddrs_uart c p.1 (List.of_mem_zip hp).1
  counts d hd := by
    obtain ⟨p, -, rfl⟩ := List.mem_map.1 hd
    rfl

/-- R7 keeps `P_ADDR_DSP_CFG_CKSUM` below 0x7F. -/
theorem addrDspCfgCksum_le (c : Params) : c.opn.addrDspCfgCksum.toNat ≤ 0x7F := by
  have h := c.legal
  simp only [ParamValues.wf, OpenParams.wf, Bool.and_eq_true, decide_eq_true_eq] at h
  omega

/-- A descriptor of `lc_list()` writes an image address, the checksum's, or a post-checksum one (R132). -/
theorem mem_lcList {c : Params} {uart : Bool} {img : Vector Word 30} {d : Descriptor} (h : d ∈ lcList c uart img) :
    d.op = .write ∧ ((∃ i < 30, d.a = configAddr i) ∨ d.a = c.opn.addrDspCfgCksum ∨ ∃ p ∈ postWrites c uart, d.a = p.1) := by
  simp only [lcList, List.mem_append, List.mem_map, List.mem_singleton, List.mem_range] at h
  rcases h with (⟨i, hi, rfl⟩ | rfl) | ⟨p, hp, rfl⟩
  · exact ⟨rfl, .inl ⟨i, hi, rfl⟩⟩
  · exact ⟨rfl, .inr (.inl rfl)⟩
  · exact ⟨rfl, .inr (.inr ⟨p, hp, rfl⟩)⟩

theorem configAddr_le : ∀ i < 30, (configAddr i).toNat ≤ 0x7F := by decide

/-- The configuration sequence has seven-bit addresses in UART (R7, R132). -/
theorem runnable_lcList (c : Params) (uart : Bool) (img : Vector Word 30) : Runnable uart (lcList c uart img) where
  nonempty := by simp [lcList]
  addrs hu d hd := by
    subst hu
    obtain ⟨-, ⟨i, hi, ha⟩ | ha | ⟨p, hp, ha⟩⟩ := mem_lcList hd
    · exact ha ▸ configAddr_le i hi
    · exact ha ▸ addrDspCfgCksum_le c
    · exact ha ▸ postWrites_uart c p hp
  counts d hd := by
    obtain ⟨hop, -⟩ := mem_lcList hd
    simp [descriptorOk, hop]

/-! ### The invariant while `rst` = 0, and what of it holds in the middle of a step -/

/-- The invariant, and `rst` = 0: what every agent step but those under reset starts from. -/
structure Live (s : State) : Prop extends Inv s where
  notInReset : s.env.rst = false

/-- What the invariant says of everything but the transaction in progress and the failure counter. It holds throughout a
transaction end (R115), between whose substeps the engine is IDLE and the sequence has its owner. -/
structure SequenceInv (s : State) : Prop where
  uartAddrs : s.host.wireMode = .uart → ∀ d ∈ s.st.seqList, d.a.toNat ≤ 0x7F
  handle : if s.st.blkValid then 1 ≤ s.st.blkCount ∧ s.st.blkCount ≤ 16 else s.st.blkCount = 0
  fifo : s.st.rxFifo.length ≤ 65
  unowned : s.st.seqOwner = .none → s.st.seqList = [] ∧ s.st.seqStep = 0
  counts : ∀ d ∈ s.st.seqList, descriptorOk d = true
  hostRuns : s.st.seqOwner = .host → isBusWord s.st.cmd = true ∧ s.st.recPhase = .none
  recoveryRuns : s.st.seqOwner = .recovery ↔ s.st.recPhase = .reload
  health : s.rpe.resetting = true ↔ s.st.recPhase ≠ .none
  line : s.st.lineLow = true ↔ s.st.recPhase = .low
  locked : s.st.seqOwner ≠ .none ∨ s.st.recPhase ≠ .none → s.rpe.lock = true
  baud : s.rpe.lock = true → s.host.baud ≠ 0
  offset : s.rpe.lock = false ∨ s.host.wireMode = .uart → s.st.offsetMode = .unknown
  notInReset : s.env.rst = false

theorem Live.sequenceInv {s : State} (h : Live s) : SequenceInv s := { h with }

/-- `inReset` says nothing while `rst` = 0. -/
theorem inReset_of_notInReset {s : State} {P : Prop} (h : s.env.rst = false) : s.env.rst = true → P := fun hr => by
  simp [h] at hr

/-- A sequence has ended, and with it the recovery where it was one: no owner and no recovery phase (R167, R170). -/
structure Released (s : State) : Prop extends SequenceInv s where
  idle : s.st.engState = .idle
  noOwner : s.st.seqOwner = .none
  noPhase : s.st.recPhase = .none
  lock : s.rpe.lock = true

/-- The sequence has an owner and the engine is IDLE: the next descriptor can be issued (R120). -/
structure ReadyToIssue (s : State) : Prop extends SequenceInv s where
  idle : s.st.engState = .idle
  owned : s.st.seqOwner ≠ .none
  failCount : s.st.failCount ≤ 2

/-- The engine has nothing in progress and nothing owns a sequence: what `SequenceInv` leaves out is then empty. -/
theorem SequenceInv.live_of_idle {s : State} (h : SequenceInv s) (hidle : s.st.engState = .idle)
    (hown : s.st.seqOwner = .none) (hfail : s.st.failCount ≤ 2) : Live s :=
  { h with
    failCount := hfail
    owned := by simp [hidle, hown]
    coherent := fun hne => absurd hown hne
    txIdx := fun hne => absurd hidle hne
    chipSelect := by simp [hidle]
    awaits := by simp [hidle]
    held := by simp [hidle]
    inReset := inReset_of_notInReset h.notInReset }

theorem Released.live {s : State} (h : Released s) (hfail : s.st.failCount ≤ 2) : Live s :=
  h.toSequenceInv.live_of_idle h.idle h.noOwner hfail

theorem Live.engState_eq_idle {s : State} (h : Live s) (hown : s.st.seqOwner = .none) : s.st.engState = .idle :=
  h.owned.1 hown

/-- While LOCK = 0 nothing runs (R38, R164). -/
theorem Live.at_rest_of_unlocked {s : State} (h : Live s) (hl : s.rpe.lock = false) :
    s.st.seqOwner = .none ∧ s.st.recPhase = .none := by
  constructor
  · by_contra hne
    simp [h.locked (.inl hne)] at hl
  · by_contra hne
    simp [h.locked (.inr hne)] at hl

/-! ### Which CSRs the invariant reads -/

/-- Of the CSRs that the RPE writes, the invariant reads HEALTH and LOCK. -/
theorem SequenceInv.withRpe {s : State} (h : SequenceInv s) (r : RpeRegs) (hr : r.resetting = s.rpe.resetting)
    (hl : r.lock = s.rpe.lock) : SequenceInv { s with rpe := r } :=
  { h with
    health := by rw [hr]; exact h.health
    locked := fun hx => hl.trans (h.locked hx)
    baud := fun hx => h.baud (hl.symm.trans hx)
    offset := fun hx => h.offset (hl ▸ hx) }

theorem Live.withRpe {s : State} (h : Live s) (r : RpeRegs) (hr : r.resetting = s.rpe.resetting)
    (hl : r.lock = s.rpe.lock) : Live { s with rpe := r } :=
  { h.sequenceInv.withRpe r hr hl, h with inReset := inReset_of_notInReset h.notInReset }

/-- Of the CSRs that the host writes, the invariant reads DEVCFG and BAUD. -/
theorem Live.withHost {s : State} (h : Live s) (g : HostRegs) (hw : g.wireMode = s.host.wireMode)
    (hd : g.devAddr = s.host.devAddr) (hb : g.baud = s.host.baud) : Live { s with host := g } :=
  { h with
    uartAddrs := fun hx => h.uartAddrs (hw ▸ hx)
    baud := fun hx => by rw [hb]; exact h.baud hx
    offset := fun hx => h.offset (hw ▸ hx)
    chipSelect := fun hx => hw.trans (h.chipSelect hx)
    coherent := fun hown => by
      obtain ⟨d, hcur, hframe, hlen⟩ := h.coherent hown
      exact ⟨d, hcur, by simpa [HostRegs.uart, hw, hd] using hframe, hlen⟩
    inReset := inReset_of_notInReset h.notInReset }

/-- While LOCK = 0 the host may set DEVCFG and BAUD to anything (R22, R23). -/
theorem Live.withHost_of_unlocked {s : State} (h : Live s) (hl : s.rpe.lock = false) (g : HostRegs) :
    Live { s with host := g } := by
  obtain ⟨hown, -⟩ := h.at_rest_of_unlocked hl
  obtain ⟨hlist, -⟩ := h.unowned hown
  have base : SequenceInv { s with host := g } :=
    { h with
      uartAddrs := fun _ => by simp [hlist]
      baud := fun hx => by simp [hl] at hx
      offset := fun _ => h.offset (.inl hl) }
  exact base.live_of_idle (h.engState_eq_idle hown) hown h.failCount

/-! ### The host's accesses -/

theorem Live.respond {s : State} (h : Live s) (b : BusResponse) : Live (respond b s) :=
  { h with inReset := inReset_of_notInReset h.notInReset }

theorem Live.hostRead {s : State} (h : Live s) (off : BitVec 12) (size : Nat) : Live (hostRead off size s) := by
  rcases hostRead_cases off size s with ⟨-, he⟩ | ⟨-, he⟩ <;> exact he ▸ h.respond _

theorem Live.csrStore {s : State} (h : Live s) (w : Word) (r : Csr) (hl : csrLocked s r = false) :
    Live (csrStore w s r) := by
  cases r with
  | devcfg | baud => exact h.withHost_of_unlocked hl _
  | calcfg | data | ie | blkList | cfgImage => exact h.withHost _ rfl rfl rfl
  | factor f => cases f <;> exact h.withHost _ rfl rfl rfl
  | status | cksumErrCnt | timeoutCnt => exact h.withRpe _ rfl rfl
  | cmd | err | calOut | calFlags | lastCksum | result | reserved => exact h

theorem Live.csrWrite {s : State} (h : Live s) (r : Csr) (w : Word) : Live (csrWrite r w s) := by
  rcases csrWrite_cases r w s with ⟨-, he⟩ | ⟨hl, he⟩
  · exact he ▸ h.withRpe _ rfl rfl
  · exact he ▸ h.csrStore w r hl

/-! ### Acceptance (R163, R164) -/

theorem Live.overrun {s : State} (h : Live s) : Live (overrun s) := h.withRpe _ rfl rfl

/-- Only a running host command needs `st.cmd`. -/
theorem Live.latchCommand {s : State} (h : Live s) (hb : s.busy = false) (w : Word) : Live (latchCommand w s) :=
  { h with
    hostRuns := fun hown => absurd hown ((not_busy_iff s).1 hb)
    inReset := inReset_of_notInReset h.notInReset }

/-- A completion at acceptance writes ERR and DONE alone. -/
theorem Live.finish {s : State} (h : Live s) (hb : s.busy = false) (code cause : BitVec 4) (step : Nat) :
    Live (finish code cause step s) := by
  rw [finish_of_not_busy hb]
  exact h.withRpe _ rfl rfl

theorem Live.badCommand {s : State} (h : Live s) (w : Word) : Live (badCommand w s) := by
  rcases badCommand_cases w s with ⟨-, he⟩ | ⟨hb, he⟩
  · exact he ▸ h.overrun
  · exact he ▸ (h.latchCommand hb w).finish hb _ _ _

theorem Live.pipelineCommand {s : State} (h : Live s) (w : Word) {run : State → State}
    (hrun : ∀ u, Live u → u.busy = false → Live (run u)) : Live (pipelineCommand w run s) := by
  rcases pipelineCommand_cases w run s with ⟨-, he⟩ | ⟨hb, he⟩
  · exact he ▸ h.overrun
  · exact he ▸ hrun _ (h.latchCommand hb w) hb

/-- A bus command has passed every check of R164: LOCK is set, nothing runs, and `st.cmd` is its word. -/
structure Accepted (s : State) : Prop extends Live s where
  lock : s.rpe.lock = true
  noOwner : s.st.seqOwner = .none
  noPhase : s.st.recPhase = .none
  busWord : isBusWord s.st.cmd = true

/-- HEALTH = Healthy and BUSY = 0: neither a recovery nor a host command runs (R62). -/
theorem Live.at_rest_of_healthy {s : State} (h : Live s) (hb : s.busy = false) (hr : s.rpe.resetting = false) :
    s.st.seqOwner = .none ∧ s.st.recPhase = .none := by
  have hphase : s.st.recPhase = .none := by
    by_contra hne
    simp [h.health.2 hne] at hr
  refine ⟨?_, hphase⟩
  cases hown : s.st.seqOwner with
  | none => rfl
  | host => exact absurd hown ((not_busy_iff s).1 hb)
  | recovery => simp [h.recoveryRuns.1 hown] at hphase

/-- The first bus command locks DEVCFG and BAUD, with BAUD ≠ 0 (R164, R165). -/
theorem Live.accepted {s : State} (h : Live s) {w : Word} (hw : isBusWord w = true) (hb : s.busy = false)
    (hr : s.rpe.resetting = false) (hbaud : s.host.baud ≠ 0) :
    Accepted { Machine.latchCommand w s with rpe := { (Machine.latchCommand w s).rpe with lock := true } } := by
  obtain ⟨hown, hphase⟩ := h.at_rest_of_healthy hb hr
  exact { Live.latchCommand h hb w with
    locked := fun _ => rfl
    baud := fun _ => hbaud
    offset := fun hx => h.offset (.inr (hx.resolve_left (by simp)))
    inReset := inReset_of_notInReset h.notInReset
    lock := rfl
    noOwner := hown
    noPhase := hphase
    busWord := hw }

/-- Whatever acceptance answers keeps the invariant, if the command itself does once it is accepted. -/
theorem Live.busCommand {s : State} (h : Live s) {w : Word} (hw : isBusWord w = true) {p : Bool} {run : State → State}
    (hrun : ∀ u, Accepted u → u.host = s.host → p = true → Live (run u)) : Live (busCommand w p run s) := by
  rcases busCommand_cases w p run s with ⟨-, he⟩ | ⟨hb, -, he⟩ | ⟨hb, -, -, he⟩ | ⟨hb, -, -, -, he⟩ | ⟨hb, hr, hz, hp, he⟩
  · exact he ▸ h.overrun
  · exact he ▸ (h.latchCommand hb w).finish hb _ _ _
  · exact he ▸ (h.latchCommand hb w).finish hb _ _ _
  · exact he ▸ (h.latchCommand hb w).finish hb _ _ _
  · exact he ▸ hrun _ (h.accepted hw hb hr hz) rfl hp

/-! ### Xfer and the start of a sequence (R101, R120, R122) -/

theorem currentDescriptor_isSome {s : State} (h : s.st.seqStep < s.st.seqList.length) :
    ∃ d, currentDescriptor s = some d :=
  ⟨_, List.getElem?_eq_getElem h⟩

theorem xfer_of_current {s : State} {d : Descriptor} (h : currentDescriptor s = some d) : xfer s = xferOf d s := by
  simp [xfer, h]

/-- An inserted switch is the new current descriptor (R120). -/
theorem currentDescriptor_insertSwitch {s : State} {d e : Descriptor} (h : currentDescriptor s = some e) :
    currentDescriptor (insertSwitch d s) = some (switchTo s.env.cfg (modeFor d.a)) := by
  obtain ⟨hlt, -⟩ := List.getElem?_eq_some_iff.1 h
  have hlen : (s.st.seqList.take s.st.seqStep).length = s.st.seqStep := List.length_take_of_le hlt.le
  simp [currentDescriptor, insertSwitch, hlen]

/-- An insertion adds the switch and loses nothing. -/
theorem mem_insertSwitch {s : State} {d e : Descriptor} (h : e ∈ (insertSwitch d s).st.seqList) :
    e = switchTo s.env.cfg (modeFor d.a) ∨ e ∈ s.st.seqList := by
  simp only [insertSwitch_st_seqList, List.mem_append, List.mem_cons] at h
  rcases h with h | rfl | h
  · exact .inr (List.mem_of_mem_take h)
  · exact .inl rfl
  · exact .inr (List.mem_of_mem_drop h)

theorem ReadyToIssue.insertSwitch {s : State} (h : ReadyToIssue s) (d : Descriptor) : ReadyToIssue (insertSwitch d s) :=
  { h with
    uartAddrs := fun hu e he => by
      rcases mem_insertSwitch he with rfl | he
      · simp [switchTo]
      · exact h.uartAddrs hu e he
    counts := fun e he => by
      rcases mem_insertSwitch he with rfl | he
      · rfl
      · exact h.counts e he
    unowned := fun hown => absurd hown h.owned }

/-- A descriptor clears the handle or leaves it as it is (R125 b). -/
theorem ReadyToIssue.preIssue {s : State} (h : ReadyToIssue s) (d : Descriptor) : ReadyToIssue (preIssue d s) :=
  { h with
    handle := by
      rw [preIssue_st_blkValid, preIssue_st_blkCount]
      cases touchesBlockList s.env.cfg s.host.uart d
      · simpa using h.handle
      · simp }

/-- Execute of the current descriptor's frame starts its transaction (R101). -/
theorem ReadyToIssue.issue {s : State} (h : ReadyToIssue s) {d : Descriptor} (hcur : currentDescriptor s = some d) :
    Live (issue d s) := by
  rw [Machine.issue, execute_of_idle h.idle]
  exact { h with
    owned := by simp [h.owned]
    coherent := fun _ => ⟨d, hcur, rfl, rfl⟩
    txIdx := fun _ => Nat.zero_le _
    chipSelect := by simp
    awaits := by simp
    held := by simp
    inReset := inReset_of_notInReset h.notInReset }

theorem ReadyToIssue.xfer {s : State} (h : ReadyToIssue s) (hstep : s.st.seqStep < s.st.seqList.length) :
    Live (xfer s) := by
  obtain ⟨d, hcur⟩ := currentDescriptor_isSome hstep
  rw [xfer_of_current hcur]
  cases hsw : needsSwitch s d
  · rw [xferOf_plain hsw]
    exact (h.preIssue d).issue hcur
  · rw [xferOf_switch hsw]
    exact ((h.insertSwitch d).preIssue _).issue (currentDescriptor_insertSwitch hcur)

/-- An accepted command's sequence starts with a coherent transaction (R122). -/
theorem Accepted.startSeq {s : State} (h : Accepted s) {l : List Descriptor} (hl : Runnable s.host.uart l) :
    Live (startSeq .host l s) := by
  have ready : ReadyToIssue { s with st := { s.st with seqOwner := .host, seqList := l, seqStep := 0 } } :=
    { h with
      uartAddrs := fun hu => hl.addrs ((uart_iff _).2 hu)
      unowned := fun hx => by cases hx
      counts := hl.counts
      hostRuns := fun _ => ⟨h.busWord, h.noPhase⟩
      recoveryRuns := by simp [h.noPhase]
      locked := fun _ => h.lock
      idle := h.engState_eq_idle h.noOwner
      owned := by simp }
  exact ready.xfer (List.length_pos_iff.2 hl.nonempty)

theorem Accepted.clearHandle {s : State} (h : Accepted s) : Accepted (clearHandle s) :=
  { h with
    handle := by simp
    inReset := inReset_of_notInReset h.notInReset }

theorem Accepted.latchCksum {s : State} (h : Accepted s) (ck : Word) : Accepted (latchCksum ck s) :=
  { h with inReset := inReset_of_notInReset h.notInReset }

/-- LOAD_CONFIG latches its checksum first (R131). -/
theorem Accepted.startSeq_latchCksum {s : State} (h : Accepted s) {l : List Descriptor} (hl : Runnable s.host.uart l)
    (ck : Word) : Live (Machine.startSeq .host l (Machine.latchCksum ck s)) :=
  (h.latchCksum ck).startSeq hl

/-! ### The commands -/

theorem Live.calResult {s : State} (h : Live s) (hb : s.busy = false) (out : Word) (flags : CalFlags) :
    Live (calResult out flags s) :=
  (h.withRpe { s.rpe with calOut := out, calFlags := flags } rfl rfl).finish hb _ _ _

theorem Live.keepCreepA {s : State} (h : Live s) : Live (keepCreepA s) :=
  { h with inReset := inReset_of_notInReset h.notInReset }

theorem Live.keepCreepB {s : State} (h : Live s) : Live (keepCreepB s) :=
  { h with inReset := inReset_of_notInReset h.notInReset }

/-- Every command of the host keeps the invariant: a bus command starts its sequence, a pipeline command completes. -/
theorem Live.exec {s t : State} (h : Live s) {i : Instr} (hi : i.IsCommand) (hx : exec i s = .next t) : Live t := by
  obtain ⟨hwf, v, henc⟩ := hi
  cases i with
  | wireWrite | wireBroadcast | wireRead | wireBlock => cases henc
  | read n a =>
    obtain rfl := Host.Outcome.next.inj hx
    exact h.busCommand (isBusWord_cmdWord (by simp)) fun u hu hhost hp =>
      hu.startSeq (hhost ▸ runnable_readList hwf hp)
  | write a =>
    obtain rfl := Host.Outcome.next.inj hx
    exact h.busCommand (isBusWord_cmdWord (by simp)) fun u hu hhost hp =>
      hu.startSeq (hhost ▸ runnable_writeList _ hp)
  | broadcast a =>
    obtain rfl := Host.Outcome.next.inj hx
    exact h.busCommand (isBusWord_cmdWord (by simp)) fun u hu _ hp => hu.startSeq (runnable_bcastList _ _ hp)
  | cfgBlock n =>
    obtain rfl := Host.Outcome.next.inj hx
    exact h.busCommand (isBusWord_cmdWord (by simp)) fun u hu _ _ =>
      hu.clearHandle.startSeq (runnable_cfgBlockList _ _ _)
  | blockRead n =>
    obtain rfl := Host.Outcome.next.inj hx
    exact h.busCommand (isBusWord_cmdWord (by simp)) fun u hu _ _ => hu.startSeq (runnable_blockList _ hwf)
  | loadConfig =>
    obtain rfl := Host.Outcome.next.inj hx
    exact h.busCommand (isBusWord_cmdWord (by simp)) fun u hu _ _ => hu.startSeq_latchCksum (runnable_lcList _ _ _) _
  | calrmsP dir =>
    obtain rfl := Host.Outcome.next.inj hx
    exact h.pipelineCommand _ fun u hu hb => (hu.calResult hb _ _).keepCreepA
  | calrmsPb dir =>
    obtain rfl := Host.Outcome.next.inj hx
    exact h.pipelineCommand _ fun u hu hb => (hu.calResult hb _ _).keepCreepB
  | hex2bcd | calrmsQ | calrmsQb | calrmsSa | calrmsSb | calrmsU | calrmsI1 | calrmsI2 | calrmsHz =>
    obtain rfl := Host.Outcome.next.inj hx
    exact h.pipelineCommand _ fun u hu hb => hu.calResult hb _ _

theorem Live.commandWrite {s t : State} (h : Live s) {w : Word} (hx : commandWrite w s = .next t) : Live t := by
  unfold Machine.commandWrite at hx
  cases hd : decodeCmd w with
  | ok i =>
    rw [hd] at hx
    exact h.exec (decodeCmd_isCommand hd) hx
  | error e =>
    rw [hd] at hx
    exact Host.Outcome.next.inj hx ▸ h.badCommand w

theorem Live.hostWrite {s t : State} (h : Live s) {off : BitVec 12} {size : Nat} {w : Word}
    (hx : hostWrite off size w s = .next t) : Live t := by
  unfold Machine.hostWrite hostWriteTo at hx
  split at hx
  · split at hx
    · exact (h.respond _).commandWrite hx
    · exact Host.Outcome.next.inj hx ▸ (h.respond _).csrWrite _ w
  · exact Host.Outcome.next.inj hx ▸ h.respond _

/-! ### The end of a sequence (R122, R167, R170) -/

/-- The completion of a running host command releases the sequencer (R167). -/
theorem SequenceInv.released_finish {s : State} (h : SequenceInv s) (hidle : s.st.engState = .idle)
    (hown : s.st.seqOwner = .host) (code cause : BitVec 4) (step : Nat) : Released (finish code cause step s) := by
  obtain ⟨-, hphase⟩ := h.hostRuns hown
  rw [finish_of_busy ((busy_iff s).2 hown)]
  exact { h with
    uartAddrs := by simp
    unowned := by simp
    counts := by simp
    hostRuns := by simp
    recoveryRuns := by simp [hphase]
    locked := by simp [hphase]
    idle := hidle
    noOwner := rfl
    noPhase := hphase
    lock := h.locked (.inl (by simp [hown])) }

/-- The end of a recovery: Healthy, and nothing runs (R170). -/
theorem SequenceInv.released_endRecovery {s : State} (h : SequenceInv s) (hidle : s.st.engState = .idle)
    (hown : s.st.seqOwner = .recovery) (ok : Bool) (cause : BitVec 4) : Released (endRecovery ok cause s) :=
  have hphase : s.st.recPhase = .reload := h.recoveryRuns.1 hown
  { h with
    uartAddrs := by simp
    unowned := by simp
    counts := by simp
    hostRuns := by simp
    recoveryRuns := by simp
    health := by simp
    line := by simpa [hphase] using h.line
    locked := by simp
    idle := hidle
    noOwner := rfl
    noPhase := rfl
    lock := h.locked (.inl (by simp [hown])) }

/-- success(HOST) completes the command after it wrote RESULT or set the handle, if it is one that does (R126–R131). -/
theorem hostSuccess_cases {s t : State} (h : hostSuccess s = some t) :
    ∃ u, t = finish codeOk 0 0 u
      ∧ (u = s ∨ (∃ n, u = writeResults n s) ∨ ∃ n, countOk n = true ∧ u = setHandle n s) := by
  unfold hostSuccess at h
  cases hd : decodeCmd s.st.cmd with
  | error e => simp [hd] at h
  | ok i =>
    obtain ⟨hwf, -⟩ := decodeCmd_isCommand hd
    rw [hd] at h
    cases i with
    | read n | blockRead n => exact ⟨_, (Option.some.inj h).symm, .inr (.inl ⟨n, rfl⟩)⟩
    | cfgBlock n => exact ⟨_, (Option.some.inj h).symm, .inr (.inr ⟨n, hwf, rfl⟩)⟩
    | write | broadcast | loadConfig => exact ⟨_, (Option.some.inj h).symm, .inl rfl⟩
    | _ => cases h

/-- fail(HOST, o) completes the command and does nothing else (R126–R131). -/
theorem hostFail_eq_finish {o : TxOutcome} {s t : State} (h : hostFail o s = some t) :
    ∃ code cause, t = finish code cause s.st.seqStep s := by
  unfold hostFail at h
  split at h
  case h_6 => exact ⟨_, _, (Option.some.inj h).symm⟩
  case h_7 | h_8 => cases h
  all_goals exact ⟨_, _, (Option.some.inj h).symm⟩

theorem SequenceInv.setHandle {s : State} (h : SequenceInv s) {n : Nat} (hn : countOk n = true) :
    SequenceInv (setHandle n s) :=
  { h with handle := by simpa using (countOk_iff n).1 hn }

theorem SequenceInv.writeResults {s : State} (h : SequenceInv s) (n : Nat) : SequenceInv (writeResults n s) :=
  h.withRpe _ rfl rfl

/-- The end of a sequence with success, whoever owns it (R122, R170). -/
theorem SequenceInv.sequenceSuccess {s t : State} (h : SequenceInv s) (hidle : s.st.engState = .idle)
    (ht : sequenceSuccess s = some t) : Released t ∧ t.st.failCount = s.st.failCount := by
  unfold Machine.sequenceSuccess at ht
  cases hown : s.st.seqOwner with
  | none => simp [hown] at ht
  | recovery =>
    rw [hown] at ht
    obtain rfl := Option.some.inj ht
    exact ⟨h.released_endRecovery hidle hown _ _, rfl⟩
  | host =>
    rw [hown] at ht
    obtain ⟨u, rfl, rfl | ⟨n, rfl⟩ | ⟨n, hn, rfl⟩⟩ := hostSuccess_cases ht
    · exact ⟨h.released_finish hidle hown _ _ _, rfl⟩
    · exact ⟨(h.writeResults n).released_finish hidle hown _ _ _, rfl⟩
    · exact ⟨(h.setHandle hn).released_finish hidle hown _ _ _, rfl⟩

/-- The end of a sequence with a failure, whoever owns it (R122, R170). -/
theorem SequenceInv.sequenceFail {s t : State} {o : TxOutcome} (h : SequenceInv s) (hidle : s.st.engState = .idle)
    (ht : sequenceFail o s = some t) : Released t ∧ t.st.failCount = s.st.failCount := by
  unfold Machine.sequenceFail at ht
  cases hown : s.st.seqOwner with
  | none => simp [hown] at ht
  | recovery =>
    rw [hown] at ht
    obtain rfl := Option.some.inj ht
    exact ⟨h.released_endRecovery hidle hown _ _, rfl⟩
  | host =>
    rw [hown] at ht
    obtain ⟨code, cause, rfl⟩ := hostFail_eq_finish ht
    exact ⟨h.released_finish hidle hown _ _ _, rfl⟩

/-- The sequencer goes on with the next descriptor, or ends the sequence (R122). -/
theorem ReadyToIssue.continueSequence {s t : State} (h : ReadyToIssue s) (ht : continueSequence s = some t) :
    Live t := by
  unfold Machine.continueSequence at ht
  split at ht
  · next hstep => exact Option.some.inj ht ▸ h.xfer hstep
  · obtain ⟨hrel, hfail⟩ := h.toSequenceInv.sequenceSuccess h.idle ht
    exact hrel.live (hfail ▸ h.failCount)

/-! ### The transaction end (R115) -/

/-- A transaction end that does not trip the health check leaves the failure count at 2 at most (R117). -/
theorem failCountAfter_le {s : State} (h : s.st.failCount ≤ 2) (ht : tripsHealth s = false) :
    failCountAfter s.st.seqOwner s.st.outcome s.st.failCount ≤ 2 := by
  by_cases hown : s.st.seqOwner = .host
  · cases ho : s.st.outcome with
    | timedOut | cksumMismatch =>
      have hne : s.st.failCount + 1 ≠ 3 := by
        simpa [tripsHealth, TxOutcome.failed, failCountAfter, Config.failThreshold, hown, ho] using ht
      simp only [failCountAfter, hown, if_true]
      omega
    | complete => simp [failCountAfter, hown]
    | completeNoCheck | none => simpa [failCountAfter, hown] using h
  · simpa [failCountAfter, hown] using h

theorem tripsHealth_of_not_failed {s : State} (h : s.st.outcome.failed = false) : tripsHealth s = false := by
  simp [tripsHealth, h]

/-- Health drops after a host command's failure has released the sequencer: the first recovery phase begins (R168). -/
theorem Released.enterRecovery {s : State} (h : Released s) : Live (enterRecovery s) := by
  have base : SequenceInv (Machine.enterRecovery s) :=
    { h with
      hostRuns := fun hown => by simp [h.noOwner] at hown
      recoveryRuns := by simp [h.noOwner]
      health := by simp
      line := by
        have := h.line
        simpa [h.noPhase] using this
      locked := fun _ => h.lock }
  exact base.live_of_idle h.idle h.noOwner (Nat.zero_le 2)

/-- Substeps (1) and (2) of a transaction end, and the offset mode's part of (3) (R115, R116, R121). -/
theorem SequenceInv.booked {s : State} (h : SequenceInv s) (hown : s.st.seqOwner ≠ .none) (d : Descriptor)
    (o : TxOutcome) : SequenceInv (offsetPost d o (bookOutcome (toIdle s))) :=
  { h with
    fifo := by simp
    offset := fun hx => by
      have hlock : s.rpe.lock = true := h.locked (.inl hown)
      have huart : s.host.wireMode = .uart := hx.resolve_left (by simp [hlock])
      simpa [(uart_iff _).2 huart] using h.offset (.inr huart) }

/-- After a good outcome the next descriptor can be issued (R122). -/
theorem SequenceInv.readyToIssue_of_booked {s : State} (h : SequenceInv s) (hown : s.st.seqOwner ≠ .none)
    (hfail : failCountAfter s.st.seqOwner s.st.outcome s.st.failCount ≤ 2) (d : Descriptor) (o : TxOutcome) :
    ReadyToIssue (advance (offsetPost d o (bookOutcome (toIdle s)))) :=
  { h.booked hown d o with
    unowned := fun hx => absurd hx hown
    idle := rfl
    owned := hown
    failCount := hfail }

/-- A transaction end issues the next descriptor, ends the sequence, or starts a recovery (R115, R122, R168). -/
theorem SequenceInv.txEnd {s t : State} (h : SequenceInv s) (hown : s.st.seqOwner ≠ .none) (hfail : s.st.failCount ≤ 2)
    (ht : txEnd s = .next t) : Live t := by
  have good : ∀ d o u, s.st.outcome = o → o.failed = false →
      continueSequence (advance (offsetPost d o (bookOutcome (toIdle s)))) = some u →
      healthCheck (tripsHealth s) u = t → Live t := by
    rintro d o u ho hgood hu rfl
    have htrip := tripsHealth_of_not_failed (ho ▸ hgood)
    rw [htrip]
    exact (h.readyToIssue_of_booked hown (failCountAfter_le hfail htrip) d o).continueSequence hu
  have bad : ∀ d o u, Machine.sequenceFail o (offsetPost d o (bookOutcome (toIdle s))) = some u →
      healthCheck (tripsHealth s) u = t → Live t := by
    rintro d o u hu rfl
    obtain ⟨hrel, hcount⟩ := (h.booked hown d o).sequenceFail rfl hu
    cases htrip : tripsHealth s
    · exact hrel.live (hcount.le.trans (failCountAfter_le hfail htrip))
    · exact hrel.enterRecovery
  obtain ⟨u, hu, hcheck⟩ := (txEnd_next_iff s t).1 ht
  obtain ⟨d, -, ⟨ho, hc⟩ | ⟨ho, hc⟩ | ⟨-, hf⟩ | ⟨-, hf⟩⟩ := sequencerReacts_cases hu
  · exact good d _ u ho rfl hc hcheck
  · exact good d _ u ho rfl hc hcheck
  · exact bad d _ u hf hcheck
  · exact bad d _ u hf hcheck

/-! ### The engine's states (R100) -/

theorem Live.owned_of_not_idle {s : State} (h : Live s) (he : s.st.engState ≠ .idle) : s.st.seqOwner ≠ .none :=
  fun hown => he (h.owned.1 hown)

/-- A running transaction moves to another state but HOLD (R100). -/
theorem Live.moveEngine {s : State} (h : Live s) {e : EngState} {w : Word} {r : List Byte}
    (hs : s.st.engState ≠ .idle) (hidle : e ≠ .idle) (hhold : e ≠ .hold) (hr : r.length ≤ 65)
    (hcs : e = .setup → s.host.wireMode = .spi4) (haw : e = .awaiting → 0 < s.st.expN) :
    Live { s with st := { s.st with engState := e, waitTicks := w, rxFifo := r } } :=
  { h with
    fifo := hr
    owned := by simp [h.owned_of_not_idle hs, hidle]
    txIdx := fun _ => h.txIdx hs
    chipSelect := fun hx => hcs (hx.resolve_right hhold)
    awaits := haw
    held := fun hx => absurd hx hhold
    inReset := inReset_of_notInReset h.notInReset }

/-- The outcome is fixed: the transaction goes into HOLD or ends (R107, R115). -/
theorem Live.conclude {s t : State} (h : Live s) (hs : s.st.engState ≠ .idle) {o : TxOutcome} (ho : o ≠ .none)
    (hn : o = .completeNoCheck ↔ s.st.expN = 0) (hx : conclude o s = .next t) : Live t := by
  rcases conclude_cases o s with ⟨hspi, he⟩ | ⟨-, he⟩
  · obtain rfl := Host.Outcome.next.inj (he.symm.trans hx)
    exact { h with
      owned := by simp [h.owned_of_not_idle hs]
      txIdx := fun _ => h.txIdx hs
      chipSelect := fun _ => hspi
      awaits := by simp
      held := fun _ => ⟨ho, hn⟩
      inReset := inReset_of_notInReset h.notInReset }
  · have base : SequenceInv { s with st := { s.st with outcome := o } } := { h with }
    exact base.txEnd (h.owned_of_not_idle hs) h.failCount (he.symm.trans hx)

theorem Live.stepGuard {s : State} (h : Live s) (hs : s.st.engState = .guard) : Live (stepGuard s) := by
  have hne : s.st.engState ≠ .idle := by simp [hs]
  rcases stepGuard_cases s with he | ⟨-, hspi, he⟩ | ⟨-, -, he⟩ <;> rw [he]
  · exact h
  · exact h.moveEngine hne (by simp) (by simp) h.fifo (fun _ => hspi) (by simp)
  · exact h.moveEngine hne (by simp) (by simp) h.fifo (by simp) (by simp)

theorem Live.stepSetup {s : State} (h : Live s) (hs : s.st.engState = .setup) : Live (stepSetup s) := by
  have hne : s.st.engState ≠ .idle := by simp [hs]
  rcases stepSetup_cases s with he | ⟨-, he⟩ <;> rw [he]
  · exact h
  · exact h.moveEngine hne (by simp) (by simp) h.fifo (by simp) (by simp)

theorem Live.stepSending {s t : State} (h : Live s) (hs : s.st.engState = .sending) {txDone : Bool}
    (hx : stepSending txDone s = .next t) : Live t := by
  have hne : s.st.engState ≠ .idle := by simp [hs]
  rcases stepSending_cases txDone s with ⟨-, he⟩ | ⟨-, -, hn, he⟩ | ⟨-, -, hn, he⟩ <;> rw [he] at hx
  · exact Host.Outcome.next.inj hx ▸ h
  · exact Host.Outcome.next.inj hx ▸ h.moveEngine hne (by simp) (by simp) (by simp) (by simp) (fun _ => hn)
  · exact h.conclude hne (by simp) (by simp [hn]) hx

/-- A complete response gives COMPLETE or CKSUM_MISMATCH (R114). -/
theorem Live.takeResponse {s t : State} (h : Live s) (hs : s.st.engState = .awaiting)
    (hx : takeResponse s = .next t) : Live t := by
  have hne : s.st.engState ≠ .idle := by simp [hs]
  have hn : s.st.expN ≠ 0 := (h.awaits hs).ne'
  unfold Machine.takeResponse at hx
  split at hx
  · next words _ =>
    have hw : Live { s with st := { s.st with respWords := words } } :=
      { h with inReset := inReset_of_notInReset h.notInReset }
    exact hw.conclude hne (by simp) (by simp [hn]) hx
  · exact h.conclude hne (by simp) (by simp [hn]) hx
  · cases hx

theorem Live.stepAwaiting {s t : State} (h : Live s) (hs : s.st.engState = .awaiting)
    (hx : stepAwaiting s = .next t) : Live t := by
  rcases stepAwaiting_cases s with ⟨-, he⟩ | ⟨-, -, he⟩ | ⟨-, -, he⟩ <;> rw [he] at hx
  · exact h.takeResponse hs hx
  · exact h.conclude (by simp [hs]) (by simp) (by simp [(h.awaits hs).ne']) hx
  · exact Host.Outcome.next.inj hx ▸ h

theorem Live.stepHold {s t : State} (h : Live s) (hs : s.st.engState = .hold) (hx : stepHold s = .next t) :
    Live t := by
  rcases stepHold_cases s with ⟨-, he⟩ | ⟨-, he⟩ <;> rw [he] at hx
  · exact h.sequenceInv.txEnd (h.owned_of_not_idle (by simp [hs])) h.failCount hx
  · exact Host.Outcome.next.inj hx ▸ h

/-! ### The recovery sequencer (R169) -/

/-- A recovery moves from one phase to the next before RELOAD, and the line follows (R169). -/
theorem Live.movePhase {s : State} (h : Live s) {p : RecPhase} {l : Bool} {w : Word} (hown : s.st.seqOwner = .none)
    (hs : s.st.recPhase ≠ .none) (hp : p ≠ .none) (hreload : p ≠ .reload) (hline : l = true ↔ p = .low) :
    Live { s with st := { s.st with lineLow := l, waitTicks := w, recPhase := p } } :=
  { h with
    hostRuns := fun hx => by simp [hown] at hx
    recoveryRuns := by simp [hown, hreload]
    health := by simp [h.health.2 hs, hp]
    line := hline
    locked := fun _ => h.locked (.inr hs)
    inReset := inReset_of_notInReset h.notInReset }

/-- REINIT starts the reload, which RECOVERY owns (R169). -/
theorem Live.reload {s : State} (h : Live s) (hidle : s.st.engState = .idle) (hs : s.st.recPhase = .reinit)
    {l : List Descriptor} (hl : Runnable s.host.uart l) (ck : Word) :
    Live (startSeq .recovery l (latchCksum ck (reinitialise s))) := by
  have ready : ReadyToIssue { latchCksum ck (reinitialise s) with
      st := { (reinitialise s).st with seqOwner := .recovery, seqList := l, seqStep := 0 } } :=
    { h with
      uartAddrs := fun hu => hl.addrs ((uart_iff _).2 hu)
      handle := by simp
      fifo := by simp
      unowned := by simp
      counts := hl.counts
      hostRuns := by simp
      recoveryRuns := by simp
      health := by simpa [hs] using h.health
      line := by simpa [hs] using h.line
      locked := fun _ => h.locked (.inr (by simp [hs]))
      offset := by simp
      idle := hidle
      owned := by simp }
  exact ready.xfer (List.length_pos_iff.2 hl.nonempty)

theorem Live.stepRecovery {s : State} (h : Live s) (hidle : s.st.engState = .idle) : Live (stepRecovery s) := by
  have hown : s.st.seqOwner = .none := h.owned.2 hidle
  unfold Machine.stepRecovery
  cases hs : s.st.recPhase with
  | none | reload => exact h
  | preHigh | low =>
    dsimp only
    split
    · exact h.movePhase hown (by simp [hs]) (by simp) (by simp) (by simp)
    · exact h
  | postWait =>
    have hline : s.st.lineLow = true ↔ RecPhase.reinit = .low := by simpa [hs] using h.line
    dsimp only
    split
    · exact h.movePhase hown (by simp [hs]) (by simp) (by simp) hline
    · exact h
  | reinit => exact h.reload hidle hs (runnable_lcList _ _ _) _

/-- No descriptor waits for an IDLE engine: its step is the recovery sequencer's (R169). -/
theorem Live.stepIdle {s t : State} (h : Live s) (hidle : s.st.engState = .idle) (hx : stepIdle s = .next t) :
    Live t := by
  obtain ⟨hlist, -⟩ := h.unowned (h.owned.2 hidle)
  have hcur : currentDescriptor s = none := by simp [currentDescriptor, hlist]
  rw [stepIdle_eq, hcur] at hx
  exact Host.Outcome.next.inj hx ▸ h.stepRecovery hidle

theorem Live.engineStep {s t : State} (h : Live s) {txDone : Bool} (hx : engineStep txDone s = .next t) : Live t := by
  unfold Machine.engineStep at hx
  cases hs : s.st.engState <;> rw [hs] at hx
  case idle => exact h.stepIdle hs hx
  case guard => exact Host.Outcome.next.inj hx ▸ h.stepGuard hs
  case setup => exact Host.Outcome.next.inj hx ▸ h.stepSetup hs
  case sending => exact h.stepSending hs hx
  case awaiting => exact h.stepAwaiting hs hx
  case hold => exact h.stepHold hs hx

/-! ### The tick and the channel agents -/

theorem Live.tickStep {s : State} (h : Live s) : Live (tickStep s) :=
  { h with inReset := inReset_of_notInReset h.notInReset }

/-- A byte is on offer only inside the frame (R109). -/
theorem txIdx_lt_of_offeredByte {st : Hidden} {b : Byte} (h : offeredByte st = some b) : st.txIdx < st.txFrame.length := by
  unfold offeredByte at h
  split at h
  · exact (List.getElem?_eq_some_iff.1 h).1
  · cases h

theorem Live.channelTxStep {s : State} (h : Live s) : Live (channelTxStep s) := by
  rcases channelTxStep_cases s with ⟨-, he⟩ | ⟨b, hb, he⟩ <;> rw [he]
  · exact h
  · exact { h with
      txIdx := fun _ => txIdx_lt_of_offeredByte hb
      inReset := inReset_of_notInReset h.notInReset }

theorem Live.channelRxStep {s : State} (h : Live s) (b : Byte) : Live (channelRxStep b s) := by
  rcases channelRxStep_cases b s with ⟨hlt, he⟩ | ⟨-, he⟩ <;> rw [he]
  · exact { h with
      fifo := by simpa [Config.rxDepth] using hlt
      inReset := inReset_of_notInReset h.notInReset }
  · exact h.withRpe _ rfl rfl

/-! ### Reset, and one step -/

/-- The reset values meet the invariant, whatever the environment's record is (R44, R182). -/
theorem inv_of_reset_values {s : State} (hh : s.host = HostRegs.reset) (hr : s.rpe = RpeRegs.reset)
    (hs : s.st = Hidden.reset) : Inv s := by
  obtain ⟨host, rpe, st, env⟩ := s
  subst hh hr hs
  exact {
    uartAddrs := by simp [Hidden.reset]
    failCount := by simp [Hidden.reset]
    handle := by simp [Hidden.reset]
    fifo := by simp [Hidden.reset]
    owned := by simp [Hidden.reset]
    unowned := by simp [Hidden.reset]
    coherent := by simp [Hidden.reset]
    counts := by simp [Hidden.reset]
    hostRuns := by simp [Hidden.reset]
    recoveryRuns := by simp [Hidden.reset]
    health := by simp [Hidden.reset, RpeRegs.reset]
    line := by simp [Hidden.reset]
    locked := by simp [Hidden.reset]
    baud := by simp [RpeRegs.reset]
    offset := by simp [Hidden.reset]
    txIdx := by simp [Hidden.reset]
    chipSelect := by simp [Hidden.reset]
    awaits := by simp [Hidden.reset]
    held := by simp [Hidden.reset]
    inReset := fun _ => ⟨rfl, rfl, rfl⟩ }

/-- A step under `rst` leaves every CSR and all hidden state at the reset value, whatever the agent (R182). -/
theorem stepInReset_inv (e : Event) (s : State) : Inv (stepInReset e s) := by
  cases e with
  | hostRead off size =>
    rcases hostRead_cases off size (holdReset true s) with ⟨-, he⟩ | ⟨-, he⟩
    all_goals exact inv_of_reset_values (congrArg State.host he) (congrArg State.rpe he) (congrArg State.st he)
  | hostWrite | engine | channelTx | channelRx | tick | rst => exact inv_of_reset_values rfl rfl rfl

/-- Every agent's step with `rst` = 0 (R9). -/
theorem Live.stepRunning {s t : State} (h : Live s) {e : Event} (hx : stepRunning e s = .next t) : Inv t := by
  cases e with
  | hostRead off size => exact Host.Outcome.next.inj hx ▸ (h.hostRead off size).toInv
  | hostWrite off size w => exact (h.hostWrite hx).toInv
  | engine txDone => exact (h.engineStep hx).toInv
  | channelTx => exact Host.Outcome.next.inj hx ▸ h.channelTxStep.toInv
  | channelRx b => exact Host.Outcome.next.inj hx ▸ (h.channelRxStep b).toInv
  | tick => exact Host.Outcome.next.inj hx ▸ h.tickStep.toInv
  | rst level =>
    cases level
    · exact Host.Outcome.next.inj hx ▸ h.toInv
    · exact Host.Outcome.next.inj hx ▸ inv_of_reset_values rfl rfl rfl

theorem Inv.agentStep {s t : State} (h : Inv s) {e : Event} (hx : agentStep e s = .next t) : Inv t := by
  cases hr : s.env.rst
  · rw [agentStep_running hr] at hx
    exact Live.stepRunning { h with notInReset := hr } hx
  · rw [agentStep_in_reset hr] at hx
    exact Host.Outcome.next.inj hx ▸ stepInReset_inv e s

/-- The list of agent steps to come is no part of the invariant. -/
theorem Inv.consumeEvent {s : State} (h : Inv s) : Inv (consumeEvent s) := by
  unfold Machine.consumeEvent
  split <;> exact { h with }

/-- Settles O57: the agent's step keeps the invariant, by the agent (`Live.stepRunning`) and, for the engine, by its state. -/
theorem everyStepKeepsTheInvariant : Obligations.EveryStepKeepsTheInvariant :=
  fun _ _ h hx => h.consumeEvent.agentStep hx

end Sys2Proof.Machine
end

section
/-! PROOFS. The register window (O10, O12, O13, O14, O16, O17, O18, O19): which offset is which register (R19), what a read
of one register sees of a write to another (R59), and the words that pack several fields (R21, R27, R28, R32). -/

namespace Sys2Proof.Machine

open Sys2Proof.Spec (readAt running answered imageOffset operandOffset deviceOffset readOnlyOffset reservedOffset kept)

/-! ### The map of R19, read from the register to its offset -/

/-- The byte offset of a factor register (R19). -/
def Factor.byteOffset : Factor → Nat
  | .pg => 0x180
  | .urmg => 0x184
  | .i1rmg => 0x188
  | .i2rmg => 0x18C
  | .ib => 0x190
  | .un => 0x194
  | .sRatio => 0x198
  | .freqConst => 0x19C
  | .iSuppressTh => 0x1A0

/-- The byte offset of a register (R19). A reserved offset is no register; it stands here as the end of the window, which
no offset reaches. -/
def Csr.byteOffset : Csr → Nat
  | .devcfg => 0x000
  | .baud => 0x004
  | .calcfg => 0x008
  | .cmd => 0x00C
  | .data => 0x010
  | .status => 0x014
  | .err => 0x018
  | .ie => 0x01C
  | .cksumErrCnt => 0x020
  | .timeoutCnt => 0x024
  | .calOut => 0x028
  | .calFlags => 0x02C
  | .lastCksum => 0x030
  | .result i => 0x040 + 4 * i.val
  | .blkList j => 0x080 + 4 * j.val
  | .cfgImage i => 0x100 + 4 * i.val
  | .factor f => f.byteOffset
  | .reserved => 0x1000

/-- The model's map undoes `Csr.byteOffset`. -/
theorem csrAtWord_byteOffset (r : Csr) : csrAtWord (r.byteOffset / 4) = r := by
  have hresult : ∀ i : Fin 16, csrAtWord ((0x040 + 4 * i.val) / 4) = .result i := by decide
  have hblk : ∀ j : Fin 4, csrAtWord ((0x080 + 4 * j.val) / 4) = .blkList j := by decide
  have himage : ∀ i : Fin 30, csrAtWord ((0x100 + 4 * i.val) / 4) = .cfgImage i := by decide
  cases r with
  | result i => exact hresult i
  | blkList j => exact hblk j
  | cfgImage i => exact himage i
  | factor f => cases f <;> rfl
  | _ => rfl

/-- Past ISUPPRESS_TH the window is reserved (R20). -/
theorem csrAtWord_of_ge {k : Nat} (h : 105 ≤ k) : csrAtWord k = .reserved := by
  obtain ⟨m, rfl⟩ := Nat.exists_eq_add_of_le h
  have hm : 105 + m - 96 = m + 9 := by omega
  simp [csrAtWord, show ¬ 105 + m < 16 by omega, show ¬ 105 + m - 16 < 16 by omega, show ¬ 105 + m - 32 < 4 by omega,
    show ¬ 105 + m < 64 by omega, show ¬ 105 + m - 64 < 30 by omega, show ¬ 105 + m < 96 by omega, hm, csrFactor]

/-- A listed register stands at its own offset and at no other. -/
theorem byteOffset_csrAtWord {k : Nat} (h : csrAtWord k ≠ .reserved) : (csrAtWord k).byteOffset = 4 * k := by
  have listed : ∀ k < 105, csrAtWord k ≠ .reserved → (csrAtWord k).byteOffset = 4 * k := by decide
  exact listed k (by by_contra hk; exact h (csrAtWord_of_ge (by omega))) h

theorem csrAt_of_byteOffset {off : BitVec 12} {r : Csr} (h : off.toNat = r.byteOffset) : csrAt off = r := by
  rw [csrAt, h, csrAtWord_byteOffset]

theorem byteOffset_csrAt {off : BitVec 12} (ha : off.toNat % 4 = 0) (h : csrAt off ≠ .reserved) :
    (csrAt off).byteOffset = off.toNat := by
  rw [csrAt, byteOffset_csrAtWord h]
  omega

theorem csrAt_eq_iff {off : BitVec 12} {r : Csr} (ha : off.toNat % 4 = 0) (hr : r ≠ .reserved) :
    csrAt off = r ↔ off.toNat = r.byteOffset :=
  ⟨fun h => by rw [← h, byteOffset_csrAt ha (h ▸ hr)], csrAt_of_byteOffset⟩

/-- Two aligned offsets are the same register only where both are reserved. -/
theorem csrAt_ne_or_reserved {k off : BitVec 12} (hk : k.toNat % 4 = 0) (ha : off.toNat % 4 = 0) (hne : k ≠ off) :
    csrAt k ≠ csrAt off ∨ csrAt off = .reserved := by
  by_contra h
  obtain ⟨heq, hlisted⟩ := not_or.1 h
  rw [not_not] at heq
  have hoff := byteOffset_csrAt ha hlisted
  have hkoff := byteOffset_csrAt hk (heq ▸ hlisted)
  exact hne (BitVec.eq_of_toNat_eq (by rw [← hoff, ← hkoff, heq]))

/-! ### The groups of offsets of R38 -/

theorem csrAt_of_deviceOffset {off : BitVec 12} (h : deviceOffset off) : csrAt off = .devcfg ∨ csrAt off = .baud := by
  rcases h with h | h
  · exact .inl (csrAt_of_byteOffset h)
  · exact .inr (csrAt_of_byteOffset h)

theorem csrAt_of_imageOffset {off : BitVec 12} (ha : off.toNat % 4 = 0) (h : imageOffset off) :
    ∃ i, csrAt off = .cfgImage i := by
  obtain ⟨h1, h2⟩ := h
  exact ⟨⟨(off.toNat - 0x100) / 4, by omega⟩, csrAt_of_byteOffset (by simp only [Csr.byteOffset]; omega)⟩

theorem csrAt_of_factorOffset {off : BitVec 12} (ha : off.toNat % 4 = 0) (h1 : 0x180 ≤ off.toNat)
    (h2 : off.toNat ≤ 0x1A0) : ∃ f, csrAt off = .factor f := by
  have hcases : ∃ f : Factor, off.toNat = f.byteOffset := by
    have hk : (off.toNat - 0x180) / 4 < 9 := by omega
    have table : ∀ k < 9, ∃ f ∈ [Factor.pg, .urmg, .i1rmg, .i2rmg, .ib, .un, .sRatio, .freqConst, .iSuppressTh],
        0x180 + 4 * k = f.byteOffset := by decide
    obtain ⟨f, -, hf⟩ := table _ hk
    exact ⟨f, by omega⟩
  obtain ⟨f, hf⟩ := hcases
  exact ⟨f, csrAt_of_byteOffset hf⟩

theorem csrAt_of_operandOffset {off : BitVec 12} (ha : off.toNat % 4 = 0) (h : operandOffset off) :
    csrAt off = .calcfg ∨ csrAt off = .data ∨ (∃ j, csrAt off = .blkList j) ∨ ∃ f, csrAt off = .factor f := by
  rcases h with h | h | ⟨h1, h2⟩ | ⟨h1, h2⟩
  · exact .inl (csrAt_of_byteOffset h)
  · exact .inr (.inl (csrAt_of_byteOffset h))
  · exact .inr (.inr (.inl ⟨⟨(off.toNat - 0x080) / 4, by omega⟩,
      csrAt_of_byteOffset (by simp only [Csr.byteOffset]; omega)⟩))
  · exact .inr (.inr (.inr (csrAt_of_factorOffset ha h1 h2)))

theorem csrAt_of_readOnlyOffset {off : BitVec 12} (ha : off.toNat % 4 = 0) (h : readOnlyOffset off) :
    csrAt off = .err ∨ csrAt off = .calOut ∨ csrAt off = .calFlags ∨ csrAt off = .lastCksum
      ∨ ∃ i, csrAt off = .result i := by
  have hcases : off.toNat = 0x018 ∨ off.toNat = 0x028 ∨ off.toNat = 0x02C ∨ off.toNat = 0x030
      ∨ (0x040 ≤ off.toNat ∧ off.toNat ≤ 0x07C) := by omega
  rcases hcases with h | h | h | h | ⟨h1, h2⟩
  · exact .inl (csrAt_of_byteOffset h)
  · exact .inr (.inl (csrAt_of_byteOffset h))
  · exact .inr (.inr (.inl (csrAt_of_byteOffset h)))
  · exact .inr (.inr (.inr (.inl (csrAt_of_byteOffset h))))
  · exact .inr (.inr (.inr (.inr ⟨⟨(off.toNat - 0x040) / 4, by omega⟩,
      csrAt_of_byteOffset (by simp only [Csr.byteOffset]; omega)⟩)))

theorem csrAt_of_reservedOffset {off : BitVec 12} (ha : off.toNat % 4 = 0) (h : reservedOffset off) :
    csrAt off = .reserved := by
  by_contra hlisted
  have hoff := byteOffset_csrAt ha hlisted
  cases hr : csrAt off with
  | reserved => exact hlisted hr
  | factor f =>
    rw [hr] at hoff
    cases f <;> simp only [Csr.byteOffset, Factor.byteOffset] at hoff <;> omega
  | _ =>
    rw [hr] at hoff
    simp only [Csr.byteOffset] at hoff
    omega

/-! ### Reads and writes of one register -/

/-- A read looks at the CSRs and the hidden state, not at the model's own record (R39). -/
theorem csrRead_congr {s t : State} (hh : t.host = s.host) (hr : t.rpe = s.rpe) (hs : t.st = s.st) (r : Csr) :
    csrRead t r = csrRead s r := by
  obtain ⟨host, rpe, st, env⟩ := s
  obtain ⟨host', rpe', st', env'⟩ := t
  subst hh hr hs
  cases r <;> rfl

@[simp] theorem csrRead_answered (b : BusResponse) (s : State) (r : Csr) : csrRead (answered b s) r = csrRead s r :=
  csrRead_congr rfl rfl rfl r

theorem factorRead_factorWrite (h : HostRegs) (w : Word) (f g : Factor) :
    factorRead (factorWrite h w f) g = if g = f then w else factorRead h g := by
  cases f <;> cases g <;> rfl

/-- A write changes what is read of its own register alone (R59). -/
theorem csrRead_csrStore_of_ne (w : Word) (s : State) {r q : Csr} (hne : q ≠ r) :
    csrRead (csrStore w s r) q = csrRead s q := by
  cases r with
  | cmd | err | calOut | calFlags | lastCksum | result | reserved => rfl
  | devcfg | baud | calcfg | data | status | ie | cksumErrCnt | timeoutCnt =>
    cases q
    any_goals rfl
    exact absurd rfl hne
  | blkList j =>
    cases q with
    | blkList i => exact Vector.getElem_set_ne j.isLt i.isLt (fun h => hne (congrArg Csr.blkList (Fin.ext h.symm)))
    | _ => rfl
  | cfgImage j =>
    cases q with
    | cfgImage i => exact Vector.getElem_set_ne j.isLt i.isLt (fun h => hne (congrArg Csr.cfgImage (Fin.ext h.symm)))
    | _ => rfl
  | factor f =>
    cases q with
    | factor g => exact (factorRead_factorWrite s.host w f g).trans (if_neg fun h => hne (congrArg Csr.factor h))
    | devcfg | calcfg | ie | baud | data | blkList | cfgImage => cases f <;> rfl
    | _ => rfl

/-! ### Words made of fields -/

/-- A word whose low `n` bits are `y`, as a number. -/
theorem toNat_append_fields {m n : Nat} (x : BitVec m) (y : BitVec n) : (x ++ y).toNat = x.toNat * 2 ^ n + y.toNat := by
  rw [BitVec.toNat_append, ← Nat.shiftLeft_add_eq_or_of_lt y.isLt, Nat.shiftLeft_eq]

/-- The low `m` bits of a word with zeros above them are the word under a mask (R20). -/
theorem zeros_append_extractLsb' {k m : Nat} (w : BitVec (k + m)) :
    (0 : BitVec k) ++ w.extractLsb' 0 m = w &&& BitVec.ofNat (k + m) (2 ^ m - 1) := by
  apply BitVec.eq_of_toNat_eq
  have hm : 2 ^ m ≤ 2 ^ (k + m) := Nat.pow_le_pow_right (by decide) (Nat.le_add_left m k)
  have hpos : 0 < 2 ^ m := Nat.two_pow_pos m
  rw [toNat_append_fields, BitVec.toNat_and, BitVec.toNat_ofNat, Nat.mod_eq_of_lt (by omega),
    Nat.and_two_pow_sub_one_eq_mod]
  simp

/-! ### The host's accesses at an aligned offset -/

theorem accessOk_aligned {off : BitVec 12} (ha : off.toNat % 4 = 0) : accessOk off 4 = true := by
  simp [accessOk, ha]

theorem hostRead_aligned {off : BitVec 12} {s : State} (hr : running s) (ha : off.toNat % 4 = 0) :
    agentStep (.hostRead off 4) s = .next (answered (.data (readAt s off)) s) := by
  rw [agentStep_running hr]
  simp only [stepRunning, hostRead, accessOk_aligned ha, if_true]
  rfl

theorem hostWrite_aligned {off : BitVec 12} {s : State} (hr : running s) (ha : off.toNat % 4 = 0) (w : Word) :
    agentStep (.hostWrite off 4 w) s = hostWriteTo (csrAt off) w (answered .ack s) := by
  rw [agentStep_running hr]
  simp only [stepRunning, hostWrite, accessOk_aligned ha, if_true]
  rfl

@[simp] theorem csrLocked_answered (b : BusResponse) (s : State) (r : Csr) :
    csrLocked (answered b s) r = csrLocked s r := by
  cases r <;> rfl

/-- A write to a register other than CMD, while a lock stops it (R38). -/
theorem hostWrite_locked {off : BitVec 12} {s : State} (hr : running s) (ha : off.toNat % 4 = 0) (w : Word)
    (hcmd : csrAt off ≠ .cmd) (hl : csrLocked s (csrAt off) = true) :
    agentStep (.hostWrite off 4 w) s = .next (answered .ack (refuseWrite s)) := by
  rw [hostWrite_aligned hr ha, hostWriteTo, if_neg hcmd, csrWrite, if_pos (by simpa using hl)]
  rfl

/-- A write to a register other than CMD, while no lock stops it (R59). -/
theorem hostWrite_open {off : BitVec 12} {s : State} (hr : running s) (ha : off.toNat % 4 = 0) (w : Word)
    (hcmd : csrAt off ≠ .cmd) (hl : csrLocked s (csrAt off) = false) :
    agentStep (.hostWrite off 4 w) s = .next (csrStore w (answered .ack s) (csrAt off)) := by
  rw [hostWrite_aligned hr ha, hostWriteTo, if_neg hcmd, csrWrite, if_neg (by simp [hl])]

/-- What every open write leaves as it was: the hidden state, and every other register (R59). -/
theorem hostWrite_open_frame {off : BitVec 12} {s : State} (hr : running s) (ha : off.toNat % 4 = 0) (w : Word)
    (hcmd : csrAt off ≠ .cmd) (hl : csrLocked s (csrAt off) = false) :
    ∃ t, agentStep (.hostWrite off 4 w) s = .next t ∧ t.st = s.st ∧ t.env = { s.env with bus := .ack }
      ∧ readAt t off = csrRead (csrStore w (answered .ack s) (csrAt off)) (csrAt off)
      ∧ ∀ k : BitVec 12, k.toNat % 4 = 0 → k ≠ off → readAt t k = readAt s k := by
  refine ⟨_, hostWrite_open hr ha w hcmd hl, csrStore_st .., csrStore_env .., rfl, fun k hk hne => ?_⟩
  rcases csrAt_ne_or_reserved hk ha hne with hother | hres
  · rw [readAt, csrRead_csrStore_of_ne w _ hother, csrRead_answered]
  · rw [hres]
    exact csrRead_answered _ _ _

/-! ### The window's statements -/

/-- After the reset values every register reads 0, but CALCFG and STATUS (R19, R44). -/
theorem csrRead_of_reset_values {t : State} (hh : t.host = HostRegs.reset) (hr : t.rpe = RpeRegs.reset)
    (hs : t.st = Hidden.reset) (r : Csr) :
    csrRead t r = if r = .calcfg then 1 else if r = .status then 0x00002000 else 0 := by
  have hreset : csrRead t r = csrRead State.reset r := csrRead_congr hh hr hs r
  rw [hreset]
  cases r with
  | result i => exact Vector.getElem_replicate i.isLt
  | blkList j => exact Vector.getElem_replicate j.isLt
  | cfgImage i => exact Vector.getElem_replicate i.isLt
  | factor f => cases f <;> rfl
  | _ => rfl

/-- Settles O10: the step is `holdReset`, and its reads are those of the reset values. -/
theorem blockResetTakesEveryValue : Obligations.BlockResetTakesEveryValue := by
  intro s
  have hstep : agentStep (.rst true) s = .next (holdReset true s) := by
    cases hr : s.env.rst
    · exact agentStep_running hr _
    · exact agentStep_in_reset hr _
  refine ⟨_, hstep, fun off ha => ?_, rfl, rfl, rfl, rfl, rfl, rfl, rfl, rfl, rfl, rfl, rfl, rfl, rfl, rfl, rfl, rfl, rfl,
    rfl, rfl, rfl, rfl, rfl, rfl, rfl⟩
  rw [readAt, csrRead_of_reset_values rfl rfl rfl]
  simp only [csrAt_eq_iff ha (show Csr.calcfg ≠ .reserved by simp), csrAt_eq_iff ha (show Csr.status ≠ .reserved by simp),
    Csr.byteOffset]

/-- Settles O12: a read answers on the bus and reads nothing of the bus. -/
theorem readsHaveNoSideEffect : Obligations.ReadsHaveNoSideEffect := by
  intro off size s hr
  refine ⟨_, agentStep_running hr _, ?_⟩
  rcases hostRead_cases off size s with ⟨-, he⟩ | ⟨-, he⟩ <;> rw [he] <;>
    exact ⟨rfl, rfl, rfl, rfl, fun k => csrRead_congr rfl rfl rfl _⟩

/-- The three groups of R38 are locked under their conditions, and CMD is in none of them. -/
theorem csrLocked_of_offset {off : BitVec 12} {s : State} (ha : off.toNat % 4 = 0)
    (h : (deviceOffset off ∧ s.rpe.lock = true) ∨ (operandOffset off ∧ s.st.seqOwner = .host)
      ∨ (imageOffset off ∧ (s.st.seqOwner = .host ∨ s.rpe.resetting = true))) :
    csrAt off ≠ .cmd ∧ csrLocked s (csrAt off) = true := by
  rcases h with ⟨hoff, hl⟩ | ⟨hoff, hown⟩ | ⟨hoff, hbusy⟩
  · rcases csrAt_of_deviceOffset hoff with h | h <;> rw [h] <;> exact ⟨by simp, hl⟩
  · have hb := (busy_iff s).2 hown
    rcases csrAt_of_operandOffset ha hoff with h | h | ⟨j, h⟩ | ⟨f, h⟩ <;> rw [h] <;> exact ⟨by simp, hb⟩
  · obtain ⟨i, h⟩ := csrAt_of_imageOffset ha hoff
    rw [h]
    exact ⟨by simp, by simpa [csrLocked, busy_iff] using hbusy⟩

/-! ### The packed words as numbers -/

/-- The codes of R21, R27, R100 and R169 as numbers. -/
theorem toNat_wireModeCode (m : WireMode) :
    (wireModeCode m).toNat = match m with | .uart => 0 | .spi4 => 1 | .spi3 => 2 := by
  cases m <;> rfl

theorem toNat_offsetCode (m : OffsetMode) :
    (offsetCode m).toNat = match m with | .off => 0 | .on => 1 | .unknown => 2 := by
  cases m <;> rfl

theorem toNat_engCode (e : EngState) :
    (engCode e).toNat
      = match e with | .idle => 0 | .guard => 1 | .setup => 2 | .sending => 3 | .awaiting => 4 | .hold => 5 := by
  cases e <;> rfl

theorem toNat_recPhaseCode (p : RecPhase) :
    (recPhaseCode p).toNat
      = match p with | .none => 0 | .preHigh => 1 | .low => 2 | .postWait => 3 | .reinit => 4 | .reload => 5 := by
  cases p <;> rfl

theorem toNat_devcfgWord (h : HostRegs) :
    (devcfgWord h).toNat = h.devAddr.toNat + 4 * (wireModeCode h.wireMode).toNat := by
  simp only [devcfgWord, toNat_append_fields, BitVec.ofNat_eq_ofNat, BitVec.toNat_zero]
  omega

theorem toNat_calcfgWord (h : HostRegs) : (calcfgWord h).toNat = h.calcfg.toNat := by
  simp only [calcfgWord, toNat_append_fields, BitVec.ofNat_eq_ofNat, BitVec.toNat_zero]
  omega

theorem toNat_ieWord (h : HostRegs) : (ieWord h).toNat = h.ie.toNat := by
  simp only [ieWord, toNat_append_fields, BitVec.ofNat_eq_ofNat, BitVec.toNat_zero]
  omega

theorem toNat_errWord (r : RpeRegs) :
    (errWord r).toNat
      = r.errCode.toNat + 16 * r.errCause.toNat + 256 * r.errStep.toNat + 65536 * r.recCause.toNat := by
  simp only [errWord, toNat_append_fields, BitVec.ofNat_eq_ofNat, BitVec.toNat_zero]
  omega

theorem toNat_calFlagsWord (s : State) :
    (calFlagsWord s).toNat
      = s.rpe.calFlags.sign.toNat + 2 * s.rpe.calFlags.creep.toNat + 4 * s.rpe.calFlags.ovf.toNat
        + 8 * s.rpe.calFlags.suppressed.toNat + 16 * s.rpe.calFlags.divZero.toNat
        + 256 * s.st.creepA.toNat + 512 * s.st.creepB.toNat := by
  simp only [calFlagsWord, toNat_append_fields, BitVec.ofNat_eq_ofNat, BitVec.toNat_zero, BitVec.toNat_ofBool]
  omega

theorem toNat_statusWord {s : State} (hfail : s.st.failCount ≤ 3) (hblk : s.st.blkCount ≤ 31) :
    (statusWord s).toNat
      = s.busy.toNat + 2 * s.rpe.done.toNat + 4 * s.rpe.resetting.toNat
        + 8 * s.rpe.unhealthyEvt.toNat + 16 * s.rpe.recovered.toNat + 32 * s.rpe.recoveryFailed.toNat
        + 64 * s.rpe.cmdOverrun.toNat + 128 * s.rpe.wrLocked.toNat + 256 * s.rpe.rxOverflow.toNat
        + 512 * s.rpe.lock.toNat + 1024 * s.st.failCount + 4096 * (offsetCode s.st.offsetMode).toNat
        + 16384 * s.st.blkValid.toNat + 65536 * s.st.blkCount + 2097152 * (engCode s.st.engState).toNat
        + 16777216 * (recPhaseCode s.st.recPhase).toNat := by
  simp only [statusWord, toNat_append_fields, BitVec.ofNat_eq_ofNat, BitVec.toNat_ofBool,
    BitVec.toNat_ofNat, Nat.mod_eq_of_lt (show s.st.failCount < 2 ^ 2 by omega),
    Nat.mod_eq_of_lt (show s.st.blkCount < 2 ^ 5 by omega)]
  omega

/-- Settles O14: STATUS is the sum of its weighted fields (`toNat_statusWord`), with the codes as numbers. -/
theorem statusShowsItsFields : Obligations.StatusShowsItsFields := by
  intro s hfail hblk
  have hbusy : s.busy.toNat = if s.st.seqOwner = .host then 1 else 0 := by
    unfold State.busy
    by_cases h : s.st.seqOwner = .host <;> simp [h]
  have hsum := toNat_statusWord hfail hblk
  rw [hbusy, toNat_offsetCode, toNat_engCode, toNat_recPhaseCode] at hsum
  exact hsum

/-- Settles O13: the offset names its register, and a read of it is that register's word. -/
theorem windowReads : Obligations.WindowReads := by
  intro off s hr ha
  have reg : ∀ r : Csr, off.toNat = r.byteOffset → readAt s off = csrRead s r := fun r h => by
    rw [readAt, csrAt_of_byteOffset h]
  refine ⟨_, hostRead_aligned hr ha, ?_, reg .baud, ?_, reg .cmd, reg .data, reg .status, ?_, ?_, reg .cksumErrCnt,
    reg .timeoutCnt, reg .calOut, ?_, reg .lastCksum, fun i => reg (.result i), fun j => reg (.blkList j),
    fun i => reg (.cfgImage i), reg (.factor .pg), reg (.factor .urmg), reg (.factor .i1rmg), reg (.factor .i2rmg),
    reg (.factor .ib), reg (.factor .un), reg (.factor .sRatio), reg (.factor .freqConst), reg (.factor .iSuppressTh), ?_⟩
  · intro h
    have hsum := toNat_devcfgWord s.host
    rw [toNat_wireModeCode] at hsum
    exact reg .devcfg h ▸ hsum
  · exact fun h => reg .calcfg h ▸ toNat_calcfgWord s.host
  · exact fun h => reg .err h ▸ toNat_errWord s.rpe
  · exact fun h => reg .ie h ▸ toNat_ieWord s.host
  · exact fun h => reg .calFlags h ▸ toNat_calFlagsWord s
  · exact fun h => by rw [readAt, csrAt_of_reservedOffset ha h]; rfl

/-! ### What an open register keeps -/

theorem calcfgWord_stored (h : HostRegs) (w : Word) : calcfgWord { h with calcfg := w.extractLsb' 0 5 } = w &&& 0x1F :=
  zeros_append_extractLsb' (k := 27) (m := 5) w

theorem ieWord_stored (h : HostRegs) (w : Word) : ieWord { h with ie := w.extractLsb' 0 3 } = w &&& 7 :=
  zeros_append_extractLsb' (k := 29) (m := 3) w

/-- A register with a value of 32 bits returns the word stored in it. -/
theorem csrRead_csrStore_full (w : Word) (s : State) {r : Csr}
    (h : r = .baud ∨ r = .data ∨ (∃ j, r = .blkList j) ∨ (∃ f, r = .factor f) ∨ ∃ i, r = .cfgImage i) :
    csrRead (csrStore w s r) r = w := by
  rcases h with rfl | rfl | ⟨j, rfl⟩ | ⟨f, rfl⟩ | ⟨i, rfl⟩
  · rfl
  · rfl
  · exact Vector.getElem_set_self j.isLt
  · exact (factorRead_factorWrite s.host w f f).trans (if_pos rfl)
  · exact Vector.getElem_set_self i.isLt

/-- A read-only register and a reserved offset ignore the write (R20, log 9). -/
theorem csrStore_of_ignored (w : Word) (s : State) {off : BitVec 12} (ha : off.toNat % 4 = 0)
    (h : readOnlyOffset off ∨ reservedOffset off) :
    csrAt off ≠ .cmd ∧ csrLocked s (csrAt off) = false ∧ csrStore w s (csrAt off) = s := by
  rcases h with h | h
  · rcases csrAt_of_readOnlyOffset ha h with h | h | h | h | ⟨i, h⟩ <;> rw [h] <;> exact ⟨by simp, rfl, rfl⟩
  · rw [csrAt_of_reservedOffset ha h]
    exact ⟨by simp, rfl, rfl⟩

/-- The conditions of R38 under which a register that stores its word is open. -/
theorem csrRead_csrStore_kept {off : BitVec 12} {s : State} (ha : off.toNat % 4 = 0) (w : Word)
    (h : (off.toNat = 0x004 ∧ s.rpe.lock = false) ∨ (operandOffset off ∧ s.st.seqOwner ≠ .host)
      ∨ (imageOffset off ∧ s.st.seqOwner ≠ .host ∧ s.rpe.resetting = false) ∨ off.toNat = 0x01C) :
    csrAt off ≠ .cmd ∧ csrLocked s (csrAt off) = false
      ∧ csrRead (csrStore w s (csrAt off)) (csrAt off) = kept off w := by
  have full : ∀ r, csrAt off = r → off.toNat ≠ 0x008 → off.toNat ≠ 0x01C →
      (r = .baud ∨ r = .data ∨ (∃ j, r = .blkList j) ∨ (∃ f, r = .factor f) ∨ ∃ i, r = .cfgImage i) →
      csrRead (csrStore w s (csrAt off)) (csrAt off) = kept off w := fun r hreg h8 h1C hr => by
    rw [hreg, csrRead_csrStore_full w s hr, kept, if_neg h8, if_neg h1C]
  rcases h with ⟨hoff, hl⟩ | ⟨hoff, hown⟩ | ⟨hoff, hown, hr⟩ | hoff
  · have hreg : csrAt off = .baud := csrAt_of_byteOffset hoff
    exact ⟨by simp [hreg], by rwa [hreg], full _ hreg (by omega) (by omega) (by simp)⟩
  · have hb := (not_busy_iff s).2 hown
    rcases csrAt_of_operandOffset ha hoff with hreg | hreg | ⟨j, hreg⟩ | ⟨f, hreg⟩
    · have h8 : off.toNat = 0x008 := (csrAt_eq_iff ha (by simp)).1 hreg
      refine ⟨by simp [hreg], by rwa [hreg], ?_⟩
      rw [hreg, kept, if_pos h8]
      exact calcfgWord_stored s.host w
    all_goals
      have h8 : off.toNat ≠ 0x008 := fun h => by
        have := hreg.symm.trans (csrAt_of_byteOffset (r := .calcfg) h)
        simp at this
      exact ⟨by simp [hreg], by rwa [hreg], full _ hreg h8 (by omega) (by simp)⟩
  · obtain ⟨i, hreg⟩ := csrAt_of_imageOffset ha hoff
    have hb := (not_busy_iff s).2 hown
    exact ⟨by simp [hreg], by simp [hreg, csrLocked, hb, hr], full _ hreg (by omega) (by omega) (by simp)⟩
  · have hreg : csrAt off = .ie := csrAt_of_byteOffset hoff
    refine ⟨by simp [hreg], by rw [hreg]; rfl, ?_⟩
    rw [hreg, kept, if_neg (by omega), if_pos hoff]
    exact ieWord_stored s.host w

/-- A write of any value clears a counter (R30). -/
theorem csrRead_csrStore_counter {off : BitVec 12} (s : State) (w : Word) (h : off.toNat = 0x020 ∨ off.toNat = 0x024) :
    csrAt off ≠ .cmd ∧ csrLocked s (csrAt off) = false ∧ csrRead (csrStore w s (csrAt off)) (csrAt off) = 0 := by
  have hreg : csrAt off = .cksumErrCnt ∨ csrAt off = .timeoutCnt := h.imp csrAt_of_byteOffset csrAt_of_byteOffset
  rcases hreg with hreg | hreg <;> rw [hreg] <;> exact ⟨by simp, rfl, rfl⟩

/-- Settles O17: the write is open, stores, and leaves every other register (`hostWrite_open_frame`). -/
theorem openWritesAreStored : Obligations.OpenWritesAreStored := by
  intro off w s hr ha h
  have value : ∀ v, csrAt off ≠ .cmd ∧ csrLocked (answered .ack s) (csrAt off) = false
      ∧ csrRead (csrStore w (answered .ack s) (csrAt off)) (csrAt off) = v →
      ∃ t, agentStep (.hostWrite off 4 w) s = .next t ∧ t.st = s.st ∧ t.env = { s.env with bus := .ack }
        ∧ readAt t off = v ∧ ∀ k : BitVec 12, k.toNat % 4 = 0 → k ≠ off → readAt t k = readAt s k := by
    rintro v ⟨hcmd, hl, rfl⟩
    exact hostWrite_open_frame hr ha w hcmd (by simpa using hl)
  split
  · next hcnt => exact value _ (csrRead_csrStore_counter _ w hcnt)
  · next hcnt =>
    split
    · next hign =>
      obtain ⟨hcmd, hl, hs⟩ := csrStore_of_ignored w (answered .ack s) ha hign
      exact value _ ⟨hcmd, hl, by rw [hs, csrRead_answered]⟩
    · next hign =>
      refine value _ (csrRead_csrStore_kept (s := answered .ack s) ha w ?_)
      rcases h with h | h | h | h | h | h | h
      · exact .inl h
      · exact .inr (.inl h)
      · exact .inr (.inr (.inl h))
      · exact .inr (.inr (.inr h))
      · exact absurd (.inl h) hcnt
      · exact absurd (.inr h) hcnt
      · exact absurd h hign

/-- WIRE_MODE takes the number in DEVCFG[3:2], if it is one of 0 to 2 (R22). -/
theorem wireModeWritten_eq (old : WireMode) (w : Word) :
    wireModeWritten old (w.extractLsb' 2 2)
      = if w.toNat / 4 % 4 = 0 then .uart else if w.toNat / 4 % 4 = 1 then .spi4
        else if w.toNat / 4 % 4 = 2 then .spi3 else old := by
  have hnat : (w.extractLsb' 2 2).toNat = w.toNat / 4 % 4 := by
    simp [BitVec.extractLsb'_toNat, Nat.shiftRight_eq_div_pow]
  simp [wireModeWritten, ← BitVec.toNat_inj, hnat]

/-- Settles O18: DEVCFG is open while LOCK = 0, and its store takes the two fields. -/
theorem wireModeKeepsALegalValue : Obligations.WireModeKeepsALegalValue := by
  intro w s hr hl
  have hdev : w.extractLsb' 0 2 = BitVec.ofNat 2 (w.toNat % 4) := by
    apply BitVec.eq_of_toNat_eq
    simp [BitVec.extractLsb'_toNat]
  have hreg : csrAt 0x000 = .devcfg := rfl
  rw [hostWrite_open hr (by decide) w (by decide) (hreg ▸ hl), hreg, ← wireModeWritten_eq, ← hdev]
  rfl

/-! ### STATUS by its bits -/

/-- The bits of STATUS below FAIL_COUNT, bit 0 first (R27). -/
def statusFlags (s : State) : List Bool :=
  [s.busy, s.rpe.done, s.rpe.resetting, s.rpe.unhealthyEvt, s.rpe.recovered, s.rpe.recoveryFailed, s.rpe.cmdOverrun,
    s.rpe.wrLocked, s.rpe.rxOverflow, s.rpe.lock]

/-- The bits of STATUS from FAIL_COUNT on: views of hidden state (R27). -/
def statusViews (st : Hidden) : BitVec 22 :=
  (0 : BitVec 5) ++ recPhaseCode st.recPhase ++ engCode st.engState ++ BitVec.ofNat 5 st.blkCount
    ++ (0 : BitVec 1) ++ BitVec.ofBool st.blkValid ++ offsetCode st.offsetMode ++ BitVec.ofNat 2 st.failCount

theorem getLsbD_append_ofBool {n : Nat} (x : BitVec n) (b : Bool) (i : Nat) :
    (x ++ BitVec.ofBool b).getLsbD i = if i = 0 then b else x.getLsbD (i - 1) := by
  rw [BitVec.getLsbD_append, BitVec.getLsbD_ofBool]
  cases i <;> simp

theorem getLsbD_statusWord (s : State) (i : Nat) :
    (statusWord s).getLsbD i
      = if i < 10 then (statusFlags s).getD i false else (statusViews s.st).getLsbD (i - 10) := by
  have hbits : (statusWord s).getLsbD i
      = BitVec.getLsbD (w := 22 + 1 + 1 + 1 + 1 + 1 + 1 + 1 + 1 + 1 + 1)
        (statusViews s.st ++ BitVec.ofBool s.rpe.lock ++ BitVec.ofBool s.rpe.rxOverflow ++ BitVec.ofBool s.rpe.wrLocked
          ++ BitVec.ofBool s.rpe.cmdOverrun ++ BitVec.ofBool s.rpe.recoveryFailed ++ BitVec.ofBool s.rpe.recovered
          ++ BitVec.ofBool s.rpe.unhealthyEvt ++ BitVec.ofBool s.rpe.resetting ++ BitVec.ofBool s.rpe.done
          ++ BitVec.ofBool s.busy) i := rfl
  rw [hbits]
  simp only [getLsbD_append_ofBool]
  by_cases h : i < 10
  · interval_cases i <;> rfl
  · obtain ⟨k, rfl⟩ := Nat.exists_eq_add_of_le' (not_lt.1 h)
    rw [if_neg h]
    rfl

/-- The W1C write clears the bits 1 and 3 to 8 that are written with 1 (R27). -/
theorem statusWord_clearStatus (w : Word) (s : State) :
    statusWord { s with rpe := clearStatus w s.rpe } = statusWord s &&& ~~~(w &&& 0x000001FA) := by
  apply BitVec.eq_of_getLsbD_eq
  intro i hi
  rw [BitVec.getLsbD_and, BitVec.getLsbD_not, BitVec.getLsbD_and, getLsbD_statusWord, getLsbD_statusWord]
  split
  · next h => interval_cases i <;> simp [statusFlags, clearStatus, State.busy]
  · next h =>
    have hmask : ∀ j < 32, ¬ j < 10 → (0x000001FA : Word).getLsbD j = false := by decide
    rw [hmask i hi h]
    simp [hi]

/-- Settles O19: STATUS is open, and its store is `clearStatus`. -/
theorem statusWritesClearFlags : Obligations.StatusWritesClearFlags := by
  intro w s hr
  have hreg : csrAt 0x014 = .status := rfl
  have hopen : csrLocked s (csrAt 0x014) = false := rfl
  obtain ⟨t, hstep, hst, -, hself, hothers⟩ := hostWrite_open_frame hr (by decide) w (by decide) hopen
  have ht : t = csrStore w (answered .ack s) .status :=
    (Host.Outcome.next.inj ((hostWrite_open hr (by decide) w (by decide) hopen).symm.trans hstep)).symm
  refine ⟨t, hstep, ?_, ht ▸ rfl, hst, hothers⟩
  rw [hself, hreg]
  exact statusWord_clearStatus w (answered .ack s)

end Sys2Proof.Machine
end
section
/-! PROOFS. What no step but its own command changes (O51, O53), and which writes are refused (O16). `Keeps` is the frame of
every step but a CSR write and a pipeline command; it is proved once for each shared operation. -/

namespace Sys2Proof.Machine

open Sys2Proof.Spec (answered wellFormedWord)

/-! ### The frame -/

/-- The configuration, the lock, the pipeline's results and the kept creep flags stay, and RESULT changes only if
`readEnds`. Each field's default proof is for an update that leaves the field's register alone. -/
structure Keeps (readEnds : Prop) (s t : State) : Prop where
  cfg : t.env.cfg = s.env.cfg := by rfl
  host : t.host = s.host := by rfl
  lock : s.rpe.lock = true → t.rpe.lock = true := by exact id
  wrLocked : t.rpe.wrLocked = s.rpe.wrLocked := by rfl
  creepA : t.st.creepA = s.st.creepA := by rfl
  creepB : t.st.creepB = s.st.creepB := by rfl
  calOut : t.rpe.calOut = s.rpe.calOut := by rfl
  calFlags : t.rpe.calFlags = s.rpe.calFlags := by rfl
  result : t.rpe.result ≠ s.rpe.result → readEnds := by exact fun h => absurd rfl h

theorem Keeps.trans {P : Prop} {s t u : State} (h : Keeps P s t) (g : Keeps P t u) : Keeps P s u where
  cfg := g.cfg.trans h.cfg
  host := g.host.trans h.host
  lock := g.lock ∘ h.lock
  wrLocked := g.wrLocked.trans h.wrLocked
  creepA := g.creepA.trans h.creepA
  creepB := g.creepB.trans h.creepB
  calOut := g.calOut.trans h.calOut
  calFlags := g.calFlags.trans h.calFlags
  result hne := by
    by_cases hs : t.rpe.result = s.rpe.result
    · exact g.result (hs ▸ hne)
    · exact h.result hs

theorem Keeps.mono {P Q : Prop} {s t : State} (h : Keeps P s t) (hPQ : P → Q) : Keeps Q s t :=
  { h with result := hPQ ∘ h.result }

theorem Keeps.refl (P : Prop) (s : State) : Keeps P s s := {}

/-! ### The sequencer (R119–R122) -/

theorem keeps_execute (P : Prop) (frame : List Byte) (n : Nat) (s : State) : Keeps P s (execute frame n s) := by
  by_cases h : s.st.engState = .idle
  · rw [execute_of_idle h]
    exact {}
  · rw [execute_of_not_idle h]
    exact {}

theorem keeps_xferOf (P : Prop) (d : Descriptor) (s : State) : Keeps P s (xferOf d s) := by
  cases h : needsSwitch s d
  · rw [xferOf_plain h]
    exact Keeps.trans {} (keeps_execute P _ _ _)
  · rw [xferOf_switch h]
    exact Keeps.trans {} (keeps_execute P _ _ _)

theorem keeps_xfer (P : Prop) (s : State) : Keeps P s (xfer s) := by
  unfold xfer
  split
  · exact keeps_xferOf P _ s
  · exact {}

theorem keeps_startSeq (P : Prop) (owner : Owner) (l : List Descriptor) (s : State) : Keeps P s (startSeq owner l s) :=
  Keeps.trans {} (keeps_xfer P _)

/-- LAST_CKSUM is no part of the frame. The checksum is a variable here: no proof has to look into it. -/
theorem keeps_startSeq_latchCksum (P : Prop) (owner : Owner) (l : List Descriptor) (ck : Word) (s : State) :
    Keeps P s (startSeq owner l (latchCksum ck s)) :=
  Keeps.trans {} (keeps_startSeq P owner l _)

/-! ### The end of a sequence, and of a transaction (R115, R122) -/

/-- The host's READ or BLOCK_READ runs. -/
def RunsRead (s : State) : Prop :=
  s.st.seqOwner = .host
    ∧ ∃ n, decodeCmd s.st.cmd = .ok (.blockRead n) ∨ ∃ a, decodeCmd s.st.cmd = .ok (.read n a)

theorem keeps_readSuccess {P : Prop} (h : P) (n : Nat) (s : State) : Keeps P s (readSuccess n s) where
  result _ := h

/-- RESULT is written where the command that runs is READ or BLOCK_READ, and nowhere else (R126, R130). -/
theorem keeps_hostSuccess {s t : State} (hown : s.st.seqOwner = .host) (h : hostSuccess s = some t) :
    Keeps (RunsRead s) s t := by
  unfold hostSuccess at h
  cases hd : decodeCmd s.st.cmd with
  | error e => simp [hd] at h
  | ok i =>
    rw [hd] at h
    cases i with
    | read n a => exact Option.some.inj h ▸ keeps_readSuccess ⟨hown, n, .inr ⟨a, hd⟩⟩ n s
    | blockRead n => exact Option.some.inj h ▸ keeps_readSuccess ⟨hown, n, .inl hd⟩ n s
    | write | broadcast | cfgBlock | loadConfig =>
      obtain rfl := Option.some.inj h
      exact {}
    | _ => cases h

theorem keeps_sequenceSuccess {s t : State} (h : sequenceSuccess s = some t) : Keeps (RunsRead s) s t := by
  unfold sequenceSuccess at h
  cases hown : s.st.seqOwner <;> rw [hown] at h
  case none => cases h
  case host => exact keeps_hostSuccess hown h
  case recovery =>
    obtain rfl := Option.some.inj h
    exact {}

theorem keeps_sequenceFail (P : Prop) {o : TxOutcome} {s t : State} (h : sequenceFail o s = some t) : Keeps P s t := by
  unfold sequenceFail at h
  cases hown : s.st.seqOwner <;> rw [hown] at h
  case none => cases h
  case host =>
    obtain ⟨code, cause, rfl⟩ := hostFail_eq_finish h
    exact {}
  case recovery =>
    obtain rfl := Option.some.inj h
    exact {}

theorem keeps_continueSequence {s t : State} (h : continueSequence s = some t) : Keeps (RunsRead s) s t := by
  unfold continueSequence at h
  split at h
  · exact Option.some.inj h ▸ keeps_xfer _ s
  · exact keeps_sequenceSuccess h

/-- A transaction end writes RESULT only as the end of a READ or BLOCK_READ: booking keeps the owner and `st.cmd`. -/
theorem keeps_txEnd {s t : State} (h : txEnd s = .next t) : Keeps (RunsRead s) s t := by
  obtain ⟨u, hu, rfl⟩ := (txEnd_next_iff s t).1 h
  have hcheck : Keeps (RunsRead s) u (healthCheck (tripsHealth s) u) := by
    cases tripsHealth s <;> exact {}
  refine Keeps.trans ?_ hcheck
  obtain ⟨d, -, ⟨-, hc⟩ | ⟨-, hc⟩ | ⟨-, hf⟩ | ⟨-, hf⟩⟩ := sequencerReacts_cases hu
  · exact Keeps.trans {} ((keeps_continueSequence hc).mono id)
  · exact Keeps.trans {} ((keeps_continueSequence hc).mono id)
  · exact Keeps.trans {} (keeps_sequenceFail _ hf)
  · exact Keeps.trans {} (keeps_sequenceFail _ hf)

/-! ### The engine (R100, R169) -/

theorem keeps_conclude {o : TxOutcome} {s t : State} (h : conclude o s = .next t) : Keeps (RunsRead s) s t := by
  rcases conclude_cases o s with ⟨-, he⟩ | ⟨-, he⟩ <;> rw [he] at h
  · exact Host.Outcome.next.inj h ▸ {}
  · exact Keeps.trans {} ((keeps_txEnd h).mono id)

theorem keeps_takeResponse {s t : State} (h : takeResponse s = .next t) : Keeps (RunsRead s) s t := by
  unfold takeResponse at h
  split at h
  · exact Keeps.trans {} ((keeps_conclude h).mono id)
  · exact keeps_conclude h
  · cases h

theorem keeps_stepRecovery (P : Prop) (s : State) : Keeps P s (stepRecovery s) := by
  unfold stepRecovery
  cases s.st.recPhase with
  | none | reload => exact {}
  | reinit => exact Keeps.trans (t := reinitialise s) {} (keeps_startSeq_latchCksum P _ _ _ _)
  | preHigh | low | postWait =>
    dsimp only
    split <;> exact {}

theorem keeps_stepIdle (P : Prop) {s t : State} (h : stepIdle s = .next t) : Keeps P s t := by
  rw [stepIdle_eq] at h
  obtain rfl := Host.Outcome.next.inj h
  split
  · exact keeps_xferOf P _ s
  · exact keeps_stepRecovery P s

theorem keeps_engineStep {txDone : Bool} {s t : State} (h : engineStep txDone s = .next t) : Keeps (RunsRead s) s t := by
  unfold engineStep at h
  cases hs : s.st.engState <;> rw [hs] at h
  case idle => exact keeps_stepIdle _ h
  case guard =>
    obtain rfl := Host.Outcome.next.inj h
    rcases stepGuard_cases s with he | ⟨-, -, he⟩ | ⟨-, -, he⟩ <;> rw [he] <;> exact {}
  case setup =>
    obtain rfl := Host.Outcome.next.inj h
    rcases stepSetup_cases s with he | ⟨-, he⟩ <;> rw [he] <;> exact {}
  case sending =>
    rcases stepSending_cases txDone s with ⟨-, he⟩ | ⟨-, -, -, he⟩ | ⟨-, -, -, he⟩ <;> rw [he] at h
    · exact Host.Outcome.next.inj h ▸ {}
    · exact Host.Outcome.next.inj h ▸ {}
    · exact keeps_conclude h
  case awaiting =>
    rcases stepAwaiting_cases s with ⟨-, he⟩ | ⟨-, -, he⟩ | ⟨-, -, he⟩ <;> rw [he] at h
    · exact keeps_takeResponse h
    · exact keeps_conclude h
    · exact Host.Outcome.next.inj h ▸ {}
  case hold =>
    rcases stepHold_cases s with ⟨-, he⟩ | ⟨-, he⟩ <;> rw [he] at h
    · exact keeps_txEnd h
    · exact Host.Outcome.next.inj h ▸ {}

/-! ### The commands (R163, R164) -/

theorem keeps_busCommand {w : Word} {p : Bool} {run : State → State} {s : State} (hrun : ∀ u, Keeps False u (run u)) :
    Keeps False s (busCommand w p run s) := by
  rcases busCommand_cases w p run s with ⟨-, he⟩ | ⟨-, -, he⟩ | ⟨-, -, -, he⟩ | ⟨-, -, -, -, he⟩ | ⟨-, -, -, -, he⟩ <;> rw [he]
  · exact {}
  · exact {}
  · exact {}
  · exact {}
  · exact Keeps.trans { lock := fun _ => rfl } (hrun _)

/-- What a CMD write that runs a pipeline command does: CAL_OUT and CAL_FLAGS, and for P and PB the kept creep flag. -/
def Calculates (i : Instr) (s t : State) : Prop :=
  ∃ (w out : Word) (flags : CalFlags),
    t = calResult out flags (latchCommand w s)
    ∨ ((∃ dir, i = .calrmsP dir) ∧ t = keepCreepA (calResult out flags (latchCommand w s)))
    ∨ ((∃ dir, i = .calrmsPb dir) ∧ t = keepCreepB (calResult out flags (latchCommand w s)))

theorem pipelineCommand_keeps_or_runs (w : Word) (run : State → State) (s : State) :
    Keeps False s (pipelineCommand w run s)
    ∨ (s.busy = false ∧ pipelineCommand w run s = run (latchCommand w s)) := by
  rcases pipelineCommand_cases w run s with ⟨-, he⟩ | h
  · exact .inl (he ▸ {})
  · exact .inr h

/-- A bus command keeps the frame; a pipeline command calculates, unless BUSY = 1 drops it. -/
theorem exec_keeps_or_calculates {i : Instr} {s t : State} (hi : i.IsCommand) (h : exec i s = .next t) :
    Keeps False s t ∨ (s.busy = false ∧ (∀ w, decodeCmd w = .ok i → isBusWord w = false) ∧ Calculates i s t) := by
  obtain ⟨-, v, henc⟩ := hi
  cases i with
  | wireWrite | wireBroadcast | wireRead | wireBlock => cases henc
  | read | write | broadcast | blockRead =>
    obtain rfl := Host.Outcome.next.inj h
    exact .inl (keeps_busCommand fun u => keeps_startSeq False _ _ u)
  | cfgBlock =>
    obtain rfl := Host.Outcome.next.inj h
    exact .inl (keeps_busCommand fun u => Keeps.trans (t := clearHandle u) {} (keeps_startSeq False _ _ _))
  | loadConfig =>
    obtain rfl := Host.Outcome.next.inj h
    exact .inl (keeps_busCommand fun u => keeps_startSeq_latchCksum False _ _ _ u)
  | calrmsP =>
    obtain rfl := Host.Outcome.next.inj h
    refine (pipelineCommand_keeps_or_runs _ _ s).imp_right fun ⟨hb, he⟩ => ⟨hb, fun w hd => by simp [isBusWord, hd], ?_⟩
    exact ⟨_, _, _, .inr (.inl ⟨⟨_, rfl⟩, he⟩)⟩
  | calrmsPb =>
    obtain rfl := Host.Outcome.next.inj h
    refine (pipelineCommand_keeps_or_runs _ _ s).imp_right fun ⟨hb, he⟩ => ⟨hb, fun w hd => by simp [isBusWord, hd], ?_⟩
    exact ⟨_, _, _, .inr (.inr ⟨⟨_, rfl⟩, he⟩)⟩
  | hex2bcd | calrmsQ | calrmsQb | calrmsSa | calrmsSb | calrmsU | calrmsI1 | calrmsI2 | calrmsHz =>
    obtain rfl := Host.Outcome.next.inj h
    refine (pipelineCommand_keeps_or_runs _ _ s).imp_right fun ⟨hb, he⟩ => ⟨hb, fun w hd => by simp [isBusWord, hd], ?_⟩
    exact ⟨_, _, _, .inl he⟩

theorem commandWrite_keeps_or_calculates {w : Word} {s t : State} (h : commandWrite w s = .next t) :
    Keeps False s t ∨ (s.busy = false ∧ isBusWord w = false ∧ ∃ i, decodeCmd w = .ok i ∧ Calculates i s t) := by
  unfold commandWrite at h
  cases hd : decodeCmd w with
  | ok i =>
    rw [hd] at h
    exact (exec_keeps_or_calculates (decodeCmd_isCommand hd) h).imp_right fun ⟨hb, hw, hc⟩ => ⟨hb, hw w hd, i, rfl, hc⟩
  | error e =>
    rw [hd] at h
    obtain rfl := Host.Outcome.next.inj h
    rcases badCommand_cases w s with ⟨-, he⟩ | ⟨-, he⟩ <;> exact .inl (he ▸ {})

/-! ### Pipeline words (R81–R83) -/

theorem toNat_cmdOp (w : Word) : (cmdOp w).toNat = w.toNat % 16 := by
  simp [cmdOp, BitVec.extractLsb'_toNat]

theorem toNat_cmdNm1 (w : Word) : (cmdNm1 w).toNat = w.toNat / 16 % 16 := by
  simp [cmdNm1, BitVec.extractLsb'_toNat, Nat.shiftRight_eq_div_pow]

theorem toNat_cmdArg8 (w : Word) : (cmdArg8 w).toNat = w.toNat / 256 % 256 := by
  simp [cmdArg8, BitVec.extractLsb'_toNat, Nat.shiftRight_eq_div_pow]

theorem cmdDir_eq_false_iff (w : Word) : cmdDir w = false ↔ w.toNat / 65536 % 2 = 0 := by
  simp [cmdDir, BitVec.getLsbD, Nat.testBit_eq_decide_div_mod_eq]

theorem cmdReserved_eq_zero_iff (w : Word) : cmdReserved w = 0 ↔ w.toNat / 131072 = 0 := by
  have hlt : w.toNat / 131072 < 32768 := by omega
  rw [← BitVec.toNat_inj]
  simp [cmdReserved, BitVec.extractLsb'_toNat, Nat.shiftRight_eq_div_pow, Nat.mod_eq_of_lt hlt]

theorem whenUnused_eq_ok_iff {b : Bool} {d : Decoded Instr} {i : Instr} :
    whenUnused b d = .ok i ↔ b = true ∧ d = .ok i := by
  cases b <;> simp [whenUnused]

theorem kind_le_of_calrmsOfKind {k : Byte} {dir : Bool} {i : Instr} (h : calrmsOfKind k dir = .ok i) : k.toNat ≤ 9 := by
  unfold calrmsOfKind at h
  split at h
  case h_11 => cases h
  all_goals omega

/-- A word that decodes to no bus command is a well-formed HEX2BCD or CALRMS (R81, R83). -/
theorem wellFormedWord_of_not_bus {w : Word} {i : Instr} (hd : decodeCmd w = .ok i) (hbus : isBusWord w = false) :
    wellFormedWord w ∧ (w.toNat % 16 = 7 ∨ w.toNat % 16 = 8) := by
  by_cases hzero : cmdReserved w = 0
  case neg =>
    rw [decodeCmd, if_neg hzero] at hd
    cases hd
  have hres := (cmdReserved_eq_zero_iff w).1 hzero
  have h : decodeCmdOp w = .ok i := (if_pos hzero).symm.trans hd
  unfold decodeCmdOp at h
  split at h
  case h_7 hop =>
    obtain ⟨hu, -⟩ := whenUnused_eq_ok_iff.1 h
    rw [toNat_cmdOp] at hop
    simp only [Bool.and_eq_true, decide_eq_true_eq, Bool.not_eq_true', ← BitVec.toNat_inj, toNat_cmdNm1, toNat_cmdArg8,
      cmdDir_eq_false_iff] at hu
    obtain ⟨⟨hnm1, harg8⟩, hdir⟩ := hu
    exact ⟨⟨hres, .inr (.inr (.inr (.inl ⟨.inr hop, hnm1, harg8, hdir⟩)))⟩, .inl hop⟩
  case h_8 hop =>
    obtain ⟨hu, hk⟩ := whenUnused_eq_ok_iff.1 h
    rw [toNat_cmdOp] at hop
    simp only [decide_eq_true_eq, ← BitVec.toNat_inj, toNat_cmdNm1] at hu
    have hkind := kind_le_of_calrmsOfKind hk
    rw [toNat_cmdArg8] at hkind
    exact ⟨⟨hres, .inr (.inr (.inr (.inr ⟨hop, hu, hkind⟩)))⟩, .inr hop⟩
  case h_9 => cases h
  all_goals
    obtain rfl := Except.ok.inj (whenUnused_eq_ok h)
    simp [isBusWord, hd] at hbus

/-! ### CSR writes -/

/-- A CSR write leaves the pipeline's registers, RESULT and all hidden state (R20, R59). -/
theorem csrWrite_results (r : Csr) (w : Word) (s : State) :
    (csrWrite r w s).st = s.st ∧ (csrWrite r w s).env = s.env ∧ (csrWrite r w s).rpe.calOut = s.rpe.calOut
      ∧ (csrWrite r w s).rpe.calFlags = s.rpe.calFlags ∧ (csrWrite r w s).rpe.result = s.rpe.result := by
  rcases csrWrite_cases r w s with ⟨-, he⟩ | ⟨-, he⟩ <;> rw [he]
  · exact ⟨rfl, rfl, rfl, rfl, rfl⟩
  · cases r <;> exact ⟨rfl, rfl, rfl, rfl, rfl⟩

/-- While LOCK = 1 a CSR write leaves DEVCFG and BAUD, and no CSR write clears LOCK (R27, R38). -/
theorem csrWrite_locked_config (r : Csr) (w : Word) {s : State} (hl : s.rpe.lock = true) :
    (csrWrite r w s).rpe.lock = true ∧ (csrWrite r w s).host.devAddr = s.host.devAddr
      ∧ (csrWrite r w s).host.wireMode = s.host.wireMode ∧ (csrWrite r w s).host.baud = s.host.baud := by
  rcases csrWrite_cases r w s with ⟨-, he⟩ | ⟨hopen, he⟩ <;> rw [he]
  · exact ⟨hl, rfl, rfl, rfl⟩
  · cases r with
    | devcfg | baud => simp [csrLocked, hl] at hopen
    | factor f => cases f <;> exact ⟨hl, rfl, rfl, rfl⟩
    | _ => exact ⟨hl, rfl, rfl, rfl⟩

/-! ### Every agent's step -/

/-- What an agent's step can do while `rst` stays 0: keep the frame, write a CSR, or write CMD. -/
theorem stepRunning_cases {e : Event} {s t : State} (he : e ≠ .rst true) (h : stepRunning e s = .next t) :
    Keeps ((∃ txDone, e = .engine txDone) ∧ RunsRead s) s t
    ∨ (∃ r w, t = csrWrite r w (respond .ack s))
    ∨ ∃ w, e = .hostWrite 0x00C 4 w ∧ commandWrite w (respond .ack s) = .next t := by
  cases e with
  | hostRead off size =>
    obtain rfl := Host.Outcome.next.inj h
    rcases hostRead_cases off size s with ⟨-, he⟩ | ⟨-, he⟩ <;> rw [he] <;> exact .inl {}
  | hostWrite off size w =>
    simp only [stepRunning, hostWrite, hostWriteTo] at h
    split at h
    · next hok =>
      simp only [accessOk, Bool.and_eq_true, decide_eq_true_eq] at hok
      obtain ⟨rfl, ha⟩ := hok
      split at h
      · next hcmd =>
        have hoff : off = 0x00C := BitVec.eq_of_toNat_eq ((csrAt_eq_iff ha (by simp)).1 hcmd)
        exact .inr (.inr ⟨w, by rw [hoff], h⟩)
      · exact .inr (.inl ⟨_, _, (Host.Outcome.next.inj h).symm⟩)
    · exact .inl (Host.Outcome.next.inj h ▸ {})
  | engine txDone => exact .inl ((keeps_engineStep h).mono fun hr => ⟨⟨txDone, rfl⟩, hr⟩)
  | channelTx =>
    obtain rfl := Host.Outcome.next.inj h
    rcases channelTxStep_cases s with ⟨-, he⟩ | ⟨b, -, he⟩ <;> rw [he] <;> exact .inl {}
  | channelRx b =>
    obtain rfl := Host.Outcome.next.inj h
    rcases channelRxStep_cases b s with ⟨-, he⟩ | ⟨-, he⟩ <;> rw [he] <;> exact .inl {}
  | tick => exact .inl (Host.Outcome.next.inj h ▸ {})
  | rst level =>
    cases level
    · exact .inl (Host.Outcome.next.inj h ▸ {})
    · exact absurd rfl he

/-- A pipeline command leaves the configuration, LOCK, WR_LOCKED and RESULT. -/
theorem Calculates.config {i : Instr} {s t : State} (h : Calculates i s t) :
    t.env.cfg = s.env.cfg ∧ t.host = s.host ∧ t.rpe.lock = s.rpe.lock ∧ t.rpe.wrLocked = s.rpe.wrLocked
      ∧ t.rpe.result = s.rpe.result := by
  obtain ⟨w, out, flags, rfl | ⟨-, rfl⟩ | ⟨-, rfl⟩⟩ := h <;> exact ⟨rfl, rfl, rfl, rfl, rfl⟩

/-- Only CALRMS P writes `st.creep_a`, and only CALRMS PB `st.creep_b` (R145). -/
theorem Calculates.creep {i : Instr} {s t : State} (h : Calculates i s t) :
    (t.st.creepA ≠ s.st.creepA → ∃ dir, i = .calrmsP dir) ∧ (t.st.creepB ≠ s.st.creepB → ∃ dir, i = .calrmsPb dir) := by
  obtain ⟨w, out, flags, rfl | ⟨hP, rfl⟩ | ⟨hPb, rfl⟩⟩ := h
  · exact ⟨fun hne => absurd rfl hne, fun hne => absurd rfl hne⟩
  · exact ⟨fun _ => hP, fun hne => absurd rfl hne⟩
  · exact ⟨fun hne => absurd rfl hne, fun _ => hPb⟩

/-- A step with `rst` = 1 keeps the parameters (R182). -/
theorem stepInReset_cfg (e : Event) (s : State) : (stepInReset e s).env.cfg = s.env.cfg := by
  cases e with
  | hostRead off size =>
    rcases hostRead_cases off size (holdReset true s) with ⟨-, he⟩ | ⟨-, he⟩
    all_goals exact congrArg (fun t => t.env.cfg) he
  | _ => rfl

/-- A CMD write leaves the configuration, whatever its word. -/
theorem commandWrite_config {w : Word} {s t : State} (h : commandWrite w s = .next t) :
    t.env.cfg = s.env.cfg ∧ t.host = s.host ∧ (s.rpe.lock = true → t.rpe.lock = true)
      ∧ t.rpe.wrLocked = s.rpe.wrLocked := by
  rcases commandWrite_keeps_or_calculates h with hk | ⟨-, -, i, -, hc⟩
  · exact ⟨hk.cfg, hk.host, hk.lock, hk.wrLocked⟩
  · obtain ⟨hcfg, hhost, hlock, hwr, -⟩ := hc.config
    exact ⟨hcfg, hhost, hlock.trans, hwr⟩

/-- The parameters never change, and a locked configuration stays (R21, R38, R43). -/
theorem stepRunning_config {e : Event} {s t : State} (he : e ≠ .rst true) (h : stepRunning e s = .next t) :
    t.env.cfg = s.env.cfg
      ∧ (s.rpe.lock = true →
        t.rpe.lock = true ∧ t.host.devAddr = s.host.devAddr ∧ t.host.wireMode = s.host.wireMode
          ∧ t.host.baud = s.host.baud) := by
  rcases stepRunning_cases he h with hk | ⟨r, w, rfl⟩ | ⟨w, -, hw⟩
  · exact ⟨hk.cfg, fun hl => ⟨hk.lock hl, by rw [hk.host], by rw [hk.host], by rw [hk.host]⟩⟩
  · obtain ⟨-, henv, -⟩ := csrWrite_results r w (respond .ack s)
    exact ⟨by rw [henv]; rfl, fun hl => csrWrite_locked_config r w hl⟩
  · obtain ⟨hcfg, hhost, hlock, -⟩ := commandWrite_config hw
    exact ⟨hcfg, fun hl => ⟨hlock hl, by rw [hhost]; rfl, by rw [hhost]; rfl, by rw [hhost]; rfl⟩⟩

/-- Settles O51: by the agent's step (`stepRunning_config`); under `rst` only the parameters are claimed. -/
theorem lockedConfigurationStays : Obligations.LockedConfigurationStays := by
  intro e s t h
  cases hr : s.env.rst
  · rw [agentStep_running hr] at h
    by_cases he : e = .rst true
    · subst he
      exact ⟨Host.Outcome.next.inj h ▸ rfl, fun _ hne => absurd rfl hne⟩
    · obtain ⟨hcfg, hconfig⟩ := stepRunning_config he h
      exact ⟨hcfg, fun _ _ => hconfig⟩
  · rw [agentStep_in_reset hr] at h
    obtain rfl := Host.Outcome.next.inj h
    exact ⟨stepInReset_cfg e s, fun hrun => absurd (hr.symm.trans hrun) (by simp)⟩

/-- Settles O53: a changed result leaves the frame, so the step is the command that writes it. -/
theorem resultsChangeOnlyByTheirCommands : Obligations.ResultsChangeOnlyByTheirCommands := by
  intro e s t hr he h
  rw [agentStep_running hr] at h
  rcases stepRunning_cases he h with hk | ⟨r, w, rfl⟩ | ⟨w, hew, hw⟩
  · refine ⟨fun hne => absurd hk.creepA hne, fun hne => absurd hk.creepB hne, fun hne => ?_, fun hne => ?_⟩
    · exact hne.elim (absurd hk.calOut) (absurd hk.calFlags)
    · obtain ⟨heng, hown, hread⟩ := hk.result hne
      exact ⟨heng, hown, hread⟩
  · obtain ⟨hst, -, hout, hflags, hres⟩ := csrWrite_results r w (respond .ack s)
    exact ⟨fun hne => absurd (congrArg Hidden.creepA hst) hne, fun hne => absurd (congrArg Hidden.creepB hst) hne,
      fun hne => hne.elim (absurd hout) (absurd hflags), fun hne => absurd hres hne⟩
  · rcases commandWrite_keeps_or_calculates hw with hk | ⟨hb, hbus, i, hd, hc⟩
    · exact ⟨fun hne => absurd hk.creepA hne, fun hne => absurd hk.creepB hne,
        fun hne => hne.elim (absurd hk.calOut) (absurd hk.calFlags), fun hne => (hk.result hne).elim⟩
    · have hown : s.st.seqOwner ≠ .host := (not_busy_iff _).1 hb
      obtain ⟨hwf, hop⟩ := wellFormedWord_of_not_bus hd hbus
      obtain ⟨hA, hB⟩ := hc.creep
      obtain ⟨-, -, -, -, hres⟩ := hc.config
      refine ⟨fun hne => ?_, fun hne => ?_, fun _ => ⟨w, hew, hwf, hop, hown⟩, fun hne => absurd hres hne⟩
      · obtain ⟨dir, rfl⟩ := hA hne
        exact ⟨w, dir, hew, hd, hown⟩
      · obtain ⟨dir, rfl⟩ := hB hne
        exact ⟨w, dir, hew, hd, hown⟩

/-! ### Locked registers (R38) -/

/-- No instruction faults or is refused. -/
theorem exec_next (i : Instr) (s : State) : ∃ t, exec i s = .next t := by
  cases i <;> exact ⟨_, rfl⟩

theorem commandWrite_next (w : Word) (s : State) : ∃ t, commandWrite w s = .next t := by
  unfold commandWrite
  split
  · exact exec_next _ _
  · exact ⟨_, rfl⟩

/-- A store never sets WR_LOCKED. -/
theorem csrStore_wrLocked {w : Word} {s : State} {r : Csr} (h : (csrStore w s r).rpe.wrLocked = true) :
    s.rpe.wrLocked = true := by
  cases r with
  | status =>
    simp only [csrStore, clearStatus, Bool.and_eq_true] at h
    exact h.1
  | _ => exact h

/-- Settles O16: the first three groups are locked (`csrLocked_of_offset`), and neither the open registers nor CMD set
WR_LOCKED. -/
theorem lockedWritesAreRefused : Obligations.LockedWritesAreRefused := by
  intro off w s hr ha
  refine ⟨fun h => ?_, fun h => ?_⟩
  · obtain ⟨hcmd, hl⟩ := csrLocked_of_offset ha h
    exact hostWrite_locked hr ha w hcmd hl
  · have openRegister : ∀ r, csrAt off = r → r ≠ .cmd → csrLocked s r = false →
        ∃ t, agentStep (.hostWrite off 4 w) s = .next t ∧ (t.rpe.wrLocked = true → s.rpe.wrLocked = true) := by
      rintro r rfl hcmd hl
      exact ⟨_, hostWrite_open hr ha w hcmd hl, csrStore_wrLocked⟩
    rcases h with h | h | h | h | h
    · exact openRegister .status (csrAt_of_byteOffset h) (by simp) rfl
    · exact openRegister .ie (csrAt_of_byteOffset h) (by simp) rfl
    · exact openRegister .cksumErrCnt (csrAt_of_byteOffset h) (by simp) rfl
    · exact openRegister .timeoutCnt (csrAt_of_byteOffset h) (by simp) rfl
    · obtain ⟨t, ht⟩ := commandWrite_next w (answered .ack s)
      obtain ⟨-, -, -, hwr⟩ := commandWrite_config ht
      refine ⟨t, ?_, fun hset => hwr.symm.trans hset⟩
      rw [hostWrite_aligned hr ha, csrAt_of_byteOffset (r := .cmd) h, hostWriteTo, if_pos rfl, ht]

end Sys2Proof.Machine
end
section
/-! PROOFS. The bound of 48 descriptors (O59), the invariant at reset (O56) and the output ports (O55). The bound counts the
descriptors of the sequence and the switches that it may still insert. Inserting a switch moves one from the second count to
the first, and a change of the offset mode adds at most one to come. -/

namespace Sys2Proof.Machine

/-! ### The switches to come (R120, R121) -/

/-- A switch may go ahead of `d`: it is no BLOCK, and its address is not the switch's own. -/
def Descriptor.Addressed (d : Descriptor) : Prop := d.op ≠ .block ∧ cmd2Of d.a ≠ 0x7F

/-- An addressed descriptor leaves the offset mode (R121). -/
theorem offsetAfter_of_addressed {d : Descriptor} (h : d.Addressed) (c : Params) (o : TxOutcome) (m : OffsetMode) :
    offsetAfter c d o m = m := by
  obtain ⟨-, ha⟩ := h
  have hne : d.a ≠ 0x7F := fun heq => ha (by rw [heq]; rfl)
  rw [offsetAfter, if_neg fun hx => ha hx.2, if_neg fun hx => hne hx.2]

/-- A switch that completes gives the mode it is for: the two constants differ (R7, R121). -/
theorem offsetAfter_switchTo (c : Params) (a : Byte) (m : OffsetMode) :
    offsetAfter c (switchTo c (modeFor a)) .complete m = modeFor a := by
  have hne : c.opn.magicOffsetOff ≠ c.opn.magicOffsetOn := by
    have h := c.legal
    simp only [ParamValues.wf, OpenParams.wf, Bool.and_eq_true, decide_eq_true_eq] at h
    tauto
  have hswitch : (switchTo c (modeFor a)).op = .write ∧ cmd2Of (switchTo c (modeFor a)).a = 0x7F :=
    ⟨rfl, show cmd2Of 0x7F = 0x7F from rfl⟩
  rw [offsetAfter, if_pos hswitch]
  unfold modeFor
  split <;> simp [switchTo, offsetAfterWrite, magic, hne]

theorem switchesAhead_uart (c : Params) (m : OffsetMode) (l : List Descriptor) : switchesAhead c true m l = 0 := by
  cases l <;> rfl

/-- Ahead of an addressed descriptor goes one switch, unless the mode is its own. -/
theorem switchesAhead_addressed (c : Params) (m : OffsetMode) {d : Descriptor} (h : d.Addressed) (ds : List Descriptor) :
    switchesAhead c false m (d :: ds)
      = (if m = modeFor d.a then 0 else 1) + switchesAhead c false (modeFor d.a) ds := by
  obtain ⟨hop, ha⟩ := id h
  by_cases hm : m = modeFor d.a
  · simp [switchesAhead, hm, offsetAfter_of_addressed h]
  · have hcond : d.op ≠ .block ∧ cmd2Of d.a ≠ 0x7F ∧ m ≠ modeFor d.a := ⟨hop, ha, hm⟩
    simp only [switchesAhead, if_pos hcond, if_neg hm, Bool.false_eq_true, if_false, offsetAfter_of_addressed h]

/-- Ahead of any other descriptor goes none. -/
theorem switchesAhead_unaddressed (c : Params) (m : OffsetMode) {d : Descriptor} (h : ¬ d.Addressed)
    (ds : List Descriptor) :
    switchesAhead c false m (d :: ds) = switchesAhead c false (offsetAfter c d .complete m) ds := by
  have hcond : ¬ (d.op ≠ .block ∧ cmd2Of d.a ≠ 0x7F ∧ m ≠ modeFor d.a) := fun ⟨hop, ha, _⟩ => h ⟨hop, ha⟩
  simp only [switchesAhead, if_neg hcond, Bool.false_eq_true, if_false]

/-- Another offset mode costs at most one switch more: from the first addressed descriptor on, both modes agree. -/
theorem switchesAhead_le_succ (c : Params) (uart : Bool) (l : List Descriptor) (m m' : OffsetMode) :
    switchesAhead c uart m l ≤ 1 + switchesAhead c uart m' l := by
  cases uart
  case true => simp [switchesAhead_uart]
  induction l generalizing m m' with
  | nil => simp [switchesAhead]
  | cons d ds ih =>
    by_cases h : d.Addressed
    · rw [switchesAhead_addressed c m h, switchesAhead_addressed c m' h]
      split <;> split <;> omega
    · rw [switchesAhead_unaddressed c m h, switchesAhead_unaddressed c m' h]
      exact ih _ _

/-- Each descriptor costs at most one switch. -/
theorem switchesAhead_le_length (c : Params) (uart : Bool) (l : List Descriptor) (m : OffsetMode) :
    switchesAhead c uart m l ≤ l.length := by
  cases uart
  case true => simp [switchesAhead_uart]
  induction l generalizing m with
  | nil => simp [switchesAhead]
  | cons d ds ih =>
    rw [List.length_cons]
    by_cases h : d.Addressed
    · rw [switchesAhead_addressed c m h]
      have := ih (modeFor d.a)
      split <;> omega
    · rw [switchesAhead_unaddressed c m h]
      exact (ih _).trans (Nat.le_succ _)

/-- The descriptors in front that all want the mode OFF cost one switch together. -/
theorem switchesAhead_append_le (c : Params) (uart : Bool) (l r : List Descriptor) (m : OffsetMode)
    (hl : ∀ d ∈ l, d.Addressed ∧ modeFor d.a = .off) :
    switchesAhead c uart m (l ++ r) ≤ (if m = .off then 0 else 1) + r.length := by
  cases uart
  case true => simp [switchesAhead_uart]
  induction l generalizing m with
  | nil =>
    by_cases hm : m = .off
    · simpa [hm] using switchesAhead_le_length c false r .off
    · have := switchesAhead_le_length c false r m
      simp only [List.nil_append]
      omega
  | cons d ds ih =>
    obtain ⟨⟨haddr, hoff⟩, hds⟩ := List.forall_mem_cons.1 hl
    have htail := ih .off hds
    rw [List.cons_append, switchesAhead_addressed c m haddr, hoff]
    simp only [if_true] at htail
    omega

/-! ### The lists of the commands -/

/-- The image and checksum writes of `lc_list()` all want the mode OFF (R7, R36, R132). -/
theorem lcList_bound (c : Params) (uart : Bool) (img : Vector Word 30) (m : OffsetMode) :
    (lcList c uart img).length + switchesAhead c uart m (lcList c uart img) ≤ 48 := by
  have himage : ∀ i < 30, cmd2Of (configAddr i) ≠ 0x7F ∧ modeFor (configAddr i) = .off := by decide
  have hck : cmd2Of c.opn.addrDspCfgCksum ≠ 0x7F ∧ modeFor c.opn.addrDspCfgCksum = .off := by
    have hbyte : ∀ a : Byte, a.toNat < 0x7F → cmd2Of a ≠ 0x7F ∧ modeFor a = .off := by decide
    have h := c.legal
    simp only [ParamValues.wf, OpenParams.wf, Bool.and_eq_true, decide_eq_true_eq] at h
    exact hbyte _ (by omega)
  have hpost := postWrites_length c uart
  unfold lcList
  generalize configCksum c img = ck
  have hle := switchesAhead_append_le c uart
    ((List.range 30).map (fun i => ⟨.write, configAddr i, configValue c img i, .config⟩)
      ++ [⟨.write, c.opn.addrDspCfgCksum, ck, .config⟩])
    ((postWrites c uart).map (fun p => ⟨.write, p.1, p.2, .config⟩)) m (fun d hd => by
      rcases List.mem_append.1 hd with hd | hd
      · obtain ⟨i, hi, rfl⟩ := List.mem_map.1 hd
        obtain ⟨ha, hoff⟩ := himage i (List.mem_range.1 hi)
        exact ⟨⟨by simp, ha⟩, hoff⟩
      · obtain rfl := List.mem_singleton.1 hd
        exact ⟨⟨by simp, hck.1⟩, hck.2⟩)
  simp only [List.length_append, List.length_map, List.length_range, List.length_cons, List.length_nil] at hle ⊢
  split at hle <;> omega

/-! ### The bound, one operation at a time -/

theorem sequenceBounded_of_nil {s : State} (h : s.st.seqList = []) : sequenceBounded s := by
  simp [sequenceBounded, h, switchesAhead]

/-- The bound reads the sequence, the offset mode, the wire mode and the parameters. -/
theorem sequenceBounded_congr {s t : State} (h : sequenceBounded s) (hcfg : t.env.cfg = s.env.cfg)
    (hwire : t.host.wireMode = s.host.wireMode) (hlist : t.st.seqList = s.st.seqList)
    (hstep : t.st.seqStep = s.st.seqStep) (hmode : t.st.offsetMode = s.st.offsetMode) : sequenceBounded t := by
  simpa only [sequenceBounded, HostRegs.uart, hcfg, hwire, hlist, hstep, hmode] using h

theorem sequenceBounded_finish {s : State} (h : sequenceBounded s) (code cause : BitVec 4) (step : Nat) :
    sequenceBounded (finish code cause step s) := by
  cases hb : s.busy
  · rw [finish_of_not_busy hb]
    exact sequenceBounded_congr h rfl rfl rfl rfl rfl
  · rw [finish_of_busy hb]
    exact sequenceBounded_of_nil rfl

theorem sequenceBounded_issue {s : State} (h : sequenceBounded s) (d : Descriptor) : sequenceBounded (issue d s) := by
  unfold issue
  by_cases hidle : s.st.engState = .idle
  · rw [execute_of_idle hidle]
    exact sequenceBounded_congr h rfl rfl rfl rfl rfl
  · rwa [execute_of_not_idle hidle]

theorem sequenceBounded_preIssue {s : State} (h : sequenceBounded s) (d : Descriptor) : sequenceBounded (preIssue d s) :=
  sequenceBounded_congr h rfl rfl rfl rfl rfl

theorem sequenceBounded_latchCommand {s : State} (h : sequenceBounded s) (w : Word) :
    sequenceBounded (latchCommand w s) :=
  sequenceBounded_congr h rfl rfl rfl rfl rfl

theorem sequenceBounded_calResult {s : State} (h : sequenceBounded s) (out : Word) (flags : CalFlags) :
    sequenceBounded (calResult out flags s) := by
  unfold calResult
  exact sequenceBounded_finish (sequenceBounded_congr h rfl rfl rfl rfl rfl) codeOk 0 0

/-- The sequence from the current descriptor on. -/
theorem drop_of_current {s : State} {d : Descriptor} (h : currentDescriptor s = some d) :
    s.st.seqList.drop s.st.seqStep = d :: s.st.seqList.drop (s.st.seqStep + 1) := by
  obtain ⟨hlt, rfl⟩ := List.getElem?_eq_some_iff.1 h
  exact List.drop_eq_getElem_cons hlt

theorem needsSwitch_iff {s : State} {d : Descriptor} :
    needsSwitch s d = true ↔ s.host.uart = false ∧ d.Addressed ∧ s.st.offsetMode ≠ modeFor d.a := by
  simp [needsSwitch, Descriptor.Addressed, and_assoc]

/-- The switch that Xfer inserts was counted among those to come (R120). -/
theorem sequenceBounded_insertSwitch {s : State} {d : Descriptor} (h : sequenceBounded s)
    (hcur : currentDescriptor s = some d) (hsw : needsSwitch s d = true) : sequenceBounded (insertSwitch d s) := by
  obtain ⟨huart, haddr, hmode⟩ := needsSwitch_iff.1 hsw
  obtain ⟨hlt, -⟩ := List.getElem?_eq_some_iff.1 hcur
  have hdrop := drop_of_current hcur
  have hbefore : s.st.seqList.length + (1 + switchesAhead s.env.cfg false (modeFor d.a)
      (s.st.seqList.drop (s.st.seqStep + 1))) ≤ 48 := by
    have hs := h
    rwa [sequenceBounded, hdrop, huart, switchesAhead_addressed _ _ haddr, if_neg hmode] at hs
  have hlen : (s.st.seqList.take s.st.seqStep).length = s.st.seqStep := List.length_take_of_le hlt.le
  have hafter : (insertSwitch d s).st.seqList.drop s.st.seqStep
      = switchTo s.env.cfg (modeFor d.a) :: s.st.seqList.drop s.st.seqStep := by
    rw [insertSwitch_st_seqList]
    exact List.drop_left' hlen
  have hswitch : ¬ (switchTo s.env.cfg (modeFor d.a)).Addressed := fun ⟨_, ha⟩ =>
    ha (show cmd2Of 0x7F = 0x7F from rfl)
  have hcount : switchesAhead s.env.cfg false s.st.offsetMode ((insertSwitch d s).st.seqList.drop s.st.seqStep)
      = switchesAhead s.env.cfg false (modeFor d.a) (s.st.seqList.drop (s.st.seqStep + 1)) := by
    rw [hafter, switchesAhead_unaddressed _ _ hswitch, offsetAfter_switchTo, hdrop, switchesAhead_addressed _ _ haddr,
      if_pos rfl, Nat.zero_add]
  have hlength : (insertSwitch d s).st.seqList.length = s.st.seqList.length + 1 := by
    rw [insertSwitch_st_seqList, List.length_append, List.length_cons, hlen, List.length_drop]
    omega
  show (insertSwitch d s).st.seqList.length
    + switchesAhead s.env.cfg s.host.uart s.st.offsetMode ((insertSwitch d s).st.seqList.drop s.st.seqStep) ≤ 48
  rw [huart, hcount, hlength]
  omega

theorem sequenceBounded_xfer {s : State} (h : sequenceBounded s) : sequenceBounded (xfer s) := by
  cases hcur : currentDescriptor s with
  | none => simpa [xfer, hcur] using h
  | some d =>
    rw [xfer_of_current hcur]
    cases hsw : needsSwitch s d
    · rw [xferOf_plain hsw]
      exact sequenceBounded_issue (sequenceBounded_preIssue h d) d
    · rw [xferOf_switch hsw]
      exact sequenceBounded_issue (sequenceBounded_preIssue (sequenceBounded_insertSwitch h hcur hsw) _) _

theorem sequenceBounded_startSeq {owner : Owner} {l : List Descriptor} {s : State}
    (h : l.length + switchesAhead s.env.cfg s.host.uart s.st.offsetMode l ≤ 48) : sequenceBounded (startSeq owner l s) :=
  sequenceBounded_xfer h

/-- Even with a switch ahead of every descriptor, 24 descriptors are within the bound. -/
theorem sequenceBounded_startSeq_short (owner : Owner) {l : List Descriptor} (s : State) (h : l.length ≤ 24) :
    sequenceBounded (startSeq owner l s) :=
  sequenceBounded_startSeq (by have := switchesAhead_le_length s.env.cfg s.host.uart l s.st.offsetMode; omega)

theorem sequenceBounded_startSeq_lcList (owner : Owner) (c : Params) (img : Vector Word 30) (ck : Word) {s : State}
    (hc : s.env.cfg = c) : sequenceBounded (startSeq owner (lcList c s.host.uart img) (latchCksum ck s)) := by
  subst hc
  exact sequenceBounded_startSeq (lcList_bound _ _ _ _)

/-! ### The commands -/

theorem sequenceBounded_busCommand {s : State} (h : sequenceBounded s) {w : Word} {p : Bool} {run : State → State}
    (hrun : ∀ u, sequenceBounded (run u)) : sequenceBounded (busCommand w p run s) := by
  rcases busCommand_cases w p run s with ⟨-, he⟩ | ⟨-, -, he⟩ | ⟨-, -, -, he⟩ | ⟨-, -, -, -, he⟩ | ⟨-, -, -, -, he⟩ <;> rw [he]
  · exact sequenceBounded_congr h rfl rfl rfl rfl rfl
  · exact sequenceBounded_finish (sequenceBounded_latchCommand h w) codeDeviceResetting 0 0
  · exact sequenceBounded_finish (sequenceBounded_latchCommand h w) codePreconditionViolation 0 0
  · exact sequenceBounded_finish (sequenceBounded_latchCommand h w) codePreconditionViolation 0 0
  · exact hrun _

theorem sequenceBounded_pipelineCommand {s : State} (h : sequenceBounded s) {w : Word} {run : State → State}
    (hrun : ∀ u, sequenceBounded u → sequenceBounded (run u)) : sequenceBounded (pipelineCommand w run s) := by
  rcases pipelineCommand_cases w run s with ⟨-, he⟩ | ⟨-, he⟩ <;> rw [he]
  · exact sequenceBounded_congr h rfl rfl rfl rfl rfl
  · exact hrun _ (sequenceBounded_latchCommand h w)

/-- A bus command starts a list within the bound, if it starts one; a pipeline command leaves the sequence. -/
theorem sequenceBounded_exec {i : Instr} {s t : State} (hi : i.IsCommand) (h : sequenceBounded s)
    (hx : exec i s = .next t) : sequenceBounded t := by
  obtain ⟨-, v, henc⟩ := hi
  cases i with
  | wireWrite | wireBroadcast | wireRead | wireBlock => cases henc
  | read | write | broadcast | blockRead =>
    obtain rfl := Host.Outcome.next.inj hx
    exact sequenceBounded_busCommand h fun u => sequenceBounded_startSeq_short .host u (show 1 ≤ 24 by decide)
  | cfgBlock n =>
    obtain rfl := Host.Outcome.next.inj hx
    exact sequenceBounded_busCommand h fun u => sequenceBounded_startSeq_short .host _ (by simp [cfgBlockList])
  | loadConfig =>
    obtain rfl := Host.Outcome.next.inj hx
    exact sequenceBounded_busCommand h fun u => sequenceBounded_startSeq_lcList .host _ _ _ rfl
  | calrmsP | calrmsPb =>
    obtain rfl := Host.Outcome.next.inj hx
    exact sequenceBounded_pipelineCommand h fun u hu =>
      sequenceBounded_congr (sequenceBounded_calResult hu _ _) rfl rfl rfl rfl rfl
  | hex2bcd | calrmsQ | calrmsQb | calrmsSa | calrmsSb | calrmsU | calrmsI1 | calrmsI2 | calrmsHz =>
    obtain rfl := Host.Outcome.next.inj hx
    exact sequenceBounded_pipelineCommand h fun u hu => sequenceBounded_calResult hu _ _

theorem sequenceBounded_commandWrite {w : Word} {s t : State} (h : sequenceBounded s)
    (hx : commandWrite w s = .next t) : sequenceBounded t := by
  unfold commandWrite at hx
  cases hd : decodeCmd w with
  | ok i =>
    rw [hd] at hx
    exact sequenceBounded_exec (decodeCmd_isCommand hd) h hx
  | error e =>
    rw [hd] at hx
    obtain rfl := Host.Outcome.next.inj hx
    rcases badCommand_cases w s with ⟨-, he⟩ | ⟨-, he⟩ <;> rw [he]
    · exact sequenceBounded_congr h rfl rfl rfl rfl rfl
    · exact sequenceBounded_finish (sequenceBounded_latchCommand h w) codeBadCommand 0 0

/-- A CSR write reaches WIRE_MODE only while LOCK = 0, where no sequence stands (R38, R164). -/
theorem Live.sequenceBounded_csrWrite {s : State} (hs : Live s) (h : sequenceBounded s) (r : Csr) (w : Word) :
    sequenceBounded (Machine.csrWrite r w s) := by
  obtain ⟨hst, henv, -⟩ := csrWrite_results r w s
  by_cases hown : s.st.seqOwner = .none
  · obtain ⟨hlist, -⟩ := hs.unowned hown
    exact sequenceBounded_of_nil (hst ▸ hlist)
  · obtain ⟨-, -, hwire, -⟩ := csrWrite_locked_config r w (hs.locked (.inl hown))
    exact sequenceBounded_congr h (by rw [henv]) hwire (by rw [hst]) (by rw [hst]) (by rw [hst])

/-! ### The transaction end (R115, R122) -/

theorem Released.sequenceBounded {s : State} (h : Released s) : sequenceBounded s :=
  sequenceBounded_of_nil (h.unowned h.noOwner).1

/-- Without its current descriptor, and with the mode after it, the rest needs no more switches than the whole (R121). -/
theorem switchesAhead_tail_le (c : Params) (uart : Bool) (m : OffsetMode) (d : Descriptor) (ds : List Descriptor) :
    switchesAhead c uart (if uart then m else offsetAfter c d .complete m) ds ≤ switchesAhead c uart m (d :: ds) := by
  cases uart
  case true => simp [switchesAhead_uart]
  rw [if_neg Bool.false_ne_true]
  by_cases h : d.Addressed
  · rw [switchesAhead_addressed c m h, offsetAfter_of_addressed h]
    split
    · next hm => rw [hm, Nat.zero_add]
    · exact switchesAhead_le_succ c false ds m (modeFor d.a)
  · rw [switchesAhead_unaddressed c m h]

/-- The outcome lets the sequence go on: COMPLETE, or a broadcast's end, after which nothing is checked (R112, R122). -/
def Succeeds (d : Descriptor) (o : TxOutcome) : Prop := o = .complete ∨ (o = .completeNoCheck ∧ d.op = .bcast)

theorem offsetAfter_of_succeeds {d : Descriptor} {o : TxOutcome} (h : Succeeds d o) (c : Params) (m : OffsetMode) :
    offsetAfter c d o m = offsetAfter c d .complete m := by
  rcases h with rfl | ⟨rfl, hop⟩
  · rfl
  · simp [offsetAfter, hop]

theorem sequenceBounded_advance {s : State} {d : Descriptor} {o : TxOutcome} (h : sequenceBounded s)
    (hcur : currentDescriptor s = some d) (ho : Succeeds d o) :
    sequenceBounded (advance (offsetPost d o (bookOutcome (toIdle s)))) := by
  have hs := h
  rw [sequenceBounded, drop_of_current hcur] at hs
  have hle := switchesAhead_tail_le s.env.cfg s.host.uart s.st.offsetMode d (s.st.seqList.drop (s.st.seqStep + 1))
  show s.st.seqList.length + switchesAhead s.env.cfg s.host.uart
    (if s.host.uart then s.st.offsetMode else offsetAfter s.env.cfg d o s.st.offsetMode)
    (s.st.seqList.drop (s.st.seqStep + 1)) ≤ 48
  rw [offsetAfter_of_succeeds ho]
  omega

theorem ReadyToIssue.sequenceBounded_continueSequence {s t : State} (hs : ReadyToIssue s) (h : sequenceBounded s)
    (ht : Machine.continueSequence s = some t) : sequenceBounded t := by
  unfold Machine.continueSequence at ht
  split at ht
  · exact Option.some.inj ht ▸ sequenceBounded_xfer h
  · obtain ⟨hrel, -⟩ := hs.toSequenceInv.sequenceSuccess hs.idle ht
    exact hrel.sequenceBounded

theorem sequenceBounded_healthCheck {s : State} (h : sequenceBounded s) (b : Bool) :
    sequenceBounded (healthCheck b s) := by
  cases b
  · exact h
  · exact sequenceBounded_congr h rfl rfl rfl rfl rfl

/-- A transaction end advances within the bound, or drops the sequence. Only a broadcast may end unchecked. -/
theorem SequenceInv.sequenceBounded_txEnd {s t : State} (hs : SequenceInv s) (h : sequenceBounded s)
    (hown : s.st.seqOwner ≠ .none) (hfail : s.st.failCount ≤ 2)
    (hbcast : s.st.outcome = .completeNoCheck → ∀ d, currentDescriptor s = some d → d.op = .bcast)
    (ht : Machine.txEnd s = .next t) : sequenceBounded t := by
  obtain ⟨u, hu, rfl⟩ := (txEnd_next_iff s t).1 ht
  apply sequenceBounded_healthCheck
  have good : ∀ d o, currentDescriptor s = some d → s.st.outcome = o → o.failed = false → Succeeds d o →
      continueSequence (advance (offsetPost d o (bookOutcome (toIdle s)))) = some u → sequenceBounded u := by
    intro d o hcur ho hgood hsucc hc
    have htrip := tripsHealth_of_not_failed (ho ▸ hgood)
    exact (hs.readyToIssue_of_booked hown (failCountAfter_le hfail htrip) d o).sequenceBounded_continueSequence
      (sequenceBounded_advance h hcur hsucc) hc
  have bad : ∀ d o, Machine.sequenceFail o (offsetPost d o (bookOutcome (toIdle s))) = some u → sequenceBounded u := by
    intro d o hf
    obtain ⟨hrel, -⟩ := (hs.booked hown d o).sequenceFail rfl hf
    exact hrel.sequenceBounded
  obtain ⟨d, hcur, ⟨ho, hc⟩ | ⟨ho, hc⟩ | ⟨-, hf⟩ | ⟨-, hf⟩⟩ := sequencerReacts_cases hu
  · exact good d _ hcur ho rfl (.inl rfl) hc
  · exact good d _ hcur ho rfl (.inr ⟨rfl, hbcast ho d hcur⟩) hc
  · exact bad d _ hf
  · exact bad d _ hf

/-! ### The engine -/

/-- Only a broadcast expects no response (R79, R119). -/
theorem Live.bcast_of_expects_nothing {s : State} (hs : Live s) (he : s.st.engState ≠ .idle) (hn : s.st.expN = 0)
    (d : Descriptor) (hcur : currentDescriptor s = some d) : d.op = .bcast := by
  obtain ⟨e, he, -, hlen⟩ := hs.coherent (hs.owned_of_not_idle he)
  obtain rfl := Option.some.inj (hcur.symm.trans he)
  rw [hn] at hlen
  cases hop : d.op <;> simp [respLen, readRespLen, hop] at hlen ⊢

theorem Live.sequenceBounded_conclude {s t : State} (hs : Live s) (h : sequenceBounded s) (he : s.st.engState ≠ .idle)
    {o : TxOutcome} (ho : o = .completeNoCheck → s.st.expN = 0) (hx : Machine.conclude o s = .next t) :
    sequenceBounded t := by
  rcases conclude_cases o s with ⟨-, hc⟩ | ⟨-, hc⟩ <;> rw [hc] at hx
  · exact Host.Outcome.next.inj hx ▸ sequenceBounded_congr h rfl rfl rfl rfl rfl
  · have base : SequenceInv { s with st := { s.st with outcome := o } } := { hs with }
    exact base.sequenceBounded_txEnd (sequenceBounded_congr h rfl rfl rfl rfl rfl) (hs.owned_of_not_idle he) hs.failCount
      (fun hnc d hcur => hs.bcast_of_expects_nothing he (ho hnc) d hcur) hx

theorem Live.sequenceBounded_takeResponse {s t : State} (hs : Live s) (h : sequenceBounded s)
    (he : s.st.engState ≠ .idle) (hx : Machine.takeResponse s = .next t) : sequenceBounded t := by
  unfold Machine.takeResponse at hx
  split at hx
  · next words _ =>
    have hw : Live { s with st := { s.st with respWords := words } } :=
      { hs with inReset := inReset_of_notInReset hs.notInReset }
    exact hw.sequenceBounded_conclude (sequenceBounded_congr h rfl rfl rfl rfl rfl) he (by simp) hx
  · exact hs.sequenceBounded_conclude h he (by simp) hx
  · cases hx

/-- The recovery sequencer starts from no sequence, and starts only the reload (R169). -/
theorem sequenceBounded_stepRecovery {s : State} (hlist : s.st.seqList = []) : sequenceBounded (stepRecovery s) := by
  unfold stepRecovery
  cases s.st.recPhase with
  | none | reload => exact sequenceBounded_of_nil hlist
  | reinit => exact sequenceBounded_startSeq_lcList (s := reinitialise s) .recovery _ _ _ rfl
  | preHigh | low | postWait =>
    dsimp only
    split <;> exact sequenceBounded_of_nil hlist

theorem Live.sequenceBounded_engineStep {s t : State} (hs : Live s) (h : sequenceBounded s) {txDone : Bool}
    (hx : Machine.engineStep txDone s = .next t) : sequenceBounded t := by
  unfold Machine.engineStep at hx
  cases he : s.st.engState <;> rw [he] at hx
  case idle =>
    obtain ⟨hlist, -⟩ := hs.unowned (hs.owned.2 he)
    have hcur : currentDescriptor s = none := by simp [currentDescriptor, hlist]
    rw [stepIdle_eq, hcur] at hx
    exact Host.Outcome.next.inj hx ▸ sequenceBounded_stepRecovery hlist
  case guard =>
    obtain rfl := Host.Outcome.next.inj hx
    rcases stepGuard_cases s with hc | ⟨-, -, hc⟩ | ⟨-, -, hc⟩ <;> rw [hc] <;>
      exact sequenceBounded_congr h rfl rfl rfl rfl rfl
  case setup =>
    obtain rfl := Host.Outcome.next.inj hx
    rcases stepSetup_cases s with hc | ⟨-, hc⟩ <;> rw [hc] <;> exact sequenceBounded_congr h rfl rfl rfl rfl rfl
  case sending =>
    rcases stepSending_cases txDone s with ⟨-, hc⟩ | ⟨-, -, -, hc⟩ | ⟨-, -, hn, hc⟩ <;> rw [hc] at hx
    · exact Host.Outcome.next.inj hx ▸ h
    · exact Host.Outcome.next.inj hx ▸ sequenceBounded_congr h rfl rfl rfl rfl rfl
    · exact hs.sequenceBounded_conclude h (by simp [he]) (fun _ => hn) hx
  case awaiting =>
    rcases stepAwaiting_cases s with ⟨-, hc⟩ | ⟨-, -, hc⟩ | ⟨-, -, hc⟩ <;> rw [hc] at hx
    · exact hs.sequenceBounded_takeResponse h (by simp [he]) hx
    · exact hs.sequenceBounded_conclude h (by simp [he]) (by simp) hx
    · exact Host.Outcome.next.inj hx ▸ h
  case hold =>
    rcases stepHold_cases s with ⟨-, hc⟩ | ⟨-, hc⟩ <;> rw [hc] at hx
    · obtain ⟨-, hunchecked⟩ := hs.held he
      have hne : s.st.engState ≠ .idle := by simp [he]
      exact hs.sequenceInv.sequenceBounded_txEnd h (hs.owned_of_not_idle hne) hs.failCount
        (fun ho => hs.bcast_of_expects_nothing hne (hunchecked.1 ho)) hx
    · exact Host.Outcome.next.inj hx ▸ h

/-! ### One step -/

theorem Live.sequenceBounded_stepRunning {s t : State} (hs : Live s) (h : sequenceBounded s) {e : Event}
    (hx : Machine.stepRunning e s = .next t) : sequenceBounded t := by
  cases e with
  | hostRead off size =>
    obtain rfl := Host.Outcome.next.inj hx
    rcases hostRead_cases off size s with ⟨-, hc⟩ | ⟨-, hc⟩ <;> rw [hc] <;>
      exact sequenceBounded_congr h rfl rfl rfl rfl rfl
  | hostWrite off size w =>
    have hbus : ∀ b, sequenceBounded (Machine.respond b s) := fun b => sequenceBounded_congr h rfl rfl rfl rfl rfl
    simp only [Machine.stepRunning, Machine.hostWrite, hostWriteTo] at hx
    split at hx
    · split at hx
      · exact sequenceBounded_commandWrite (hbus _) hx
      · exact Host.Outcome.next.inj hx ▸ (hs.respond _).sequenceBounded_csrWrite (hbus _) _ w
    · exact Host.Outcome.next.inj hx ▸ hbus _
  | engine txDone => exact hs.sequenceBounded_engineStep h hx
  | channelTx =>
    obtain rfl := Host.Outcome.next.inj hx
    rcases channelTxStep_cases s with ⟨-, hc⟩ | ⟨b, -, hc⟩ <;> rw [hc] <;>
      exact sequenceBounded_congr h rfl rfl rfl rfl rfl
  | channelRx b =>
    obtain rfl := Host.Outcome.next.inj hx
    rcases channelRxStep_cases b s with ⟨-, hc⟩ | ⟨-, hc⟩ <;> rw [hc] <;>
      exact sequenceBounded_congr h rfl rfl rfl rfl rfl
  | tick => exact Host.Outcome.next.inj hx ▸ sequenceBounded_congr h rfl rfl rfl rfl rfl
  | rst level =>
    cases level
    · exact Host.Outcome.next.inj hx ▸ h
    · exact Host.Outcome.next.inj hx ▸ sequenceBounded_of_nil rfl

/-- Under `rst` there is no sequence (R182). -/
theorem sequenceBounded_stepInReset (e : Event) (s : State) : sequenceBounded (stepInReset e s) := by
  cases e with
  | hostRead off size =>
    rcases hostRead_cases off size (holdReset true s) with ⟨-, hc⟩ | ⟨-, hc⟩
    all_goals exact sequenceBounded_of_nil (congrArg (fun t => t.st.seqList) hc)
  | _ => exact sequenceBounded_of_nil rfl

theorem Inv.sequenceBounded_agentStep {s t : State} (hs : Inv s) (h : sequenceBounded s) {e : Event}
    (hx : Machine.agentStep e s = .next t) : sequenceBounded t := by
  cases hr : s.env.rst
  · rw [agentStep_running hr] at hx
    exact Live.sequenceBounded_stepRunning { hs with notInReset := hr } h hx
  · rw [agentStep_in_reset hr] at hx
    exact Host.Outcome.next.inj hx ▸ sequenceBounded_stepInReset e s

/-- Settles O59: by the agent's step (`Inv.sequenceBounded_agentStep`); the list itself is the bound's first summand. -/
theorem sequencesStayBounded : Obligations.SequencesStayBounded := by
  intro s t hs h hx
  have hconsume : sequenceBounded (Machine.consumeEvent s) := by
    unfold Machine.consumeEvent
    split <;> exact sequenceBounded_congr h rfl rfl rfl rfl rfl
  have ht : sequenceBounded t := hs.consumeEvent.sequenceBounded_agentStep hconsume hx
  exact ⟨ht, (Nat.le_add_right _ _).trans ht⟩

/-- Settles O56: right after reset every field is at its reset value, and there is no sequence. -/
theorem invariantHoldsAtReset : Obligations.InvariantHoldsAtReset :=
  ⟨inv_of_reset_values rfl rfl rfl, sequenceBounded_of_nil rfl⟩

/-! ### The output ports (R107, R112, R172, R174) -/

/-- The longest response has 65 bytes (R79). -/
theorem respLen_le {d : Descriptor} (h : descriptorOk d = true) : respLen d ≤ 65 := by
  have hcount : countOk d.v.toNat = true → 4 * d.v.toNat + 1 ≤ 65 := fun hc => by
    obtain ⟨-, hn⟩ := (countOk_iff _).1 hc
    omega
  unfold descriptorOk at h
  unfold respLen readRespLen
  cases hop : d.op <;> rw [hop] at h
  case write => exact show 1 ≤ 65 by decide
  case bcast => exact Nat.zero_le 65
  case read | block => exact hcount h

/-- The transaction in progress expects at most 65 bytes. -/
theorem Inv.expN_le {s : State} (h : Inv s) (he : s.st.engState ≠ .idle) : s.st.expN ≤ 65 := by
  obtain ⟨d, hcur, -, hlen⟩ := h.coherent fun hown => he (h.owned.1 hown)
  rw [hlen]
  exact respLen_le (h.counts d (List.mem_of_getElem? hcur))

theorem irq_eq_bits (s : State) :
    irq s = ((statusWord s).getLsbD 1 && (ieWord s.host).getLsbD 0 || (statusWord s).getLsbD 3 && (ieWord s.host).getLsbD 1
      || ((statusWord s).getLsbD 4 || (statusWord s).getLsbD 5) && (ieWord s.host).getLsbD 2) := by
  have hie : ∀ i < 3, (ieWord s.host).getLsbD i = s.host.ie.getLsbD i := fun i hi => by
    have h : (ieWord s.host).getLsbD i = BitVec.getLsbD (w := 29 + 3) ((0 : BitVec 29) ++ s.host.ie) i := rfl
    rw [h, BitVec.getLsbD_append, if_pos hi]
  rw [hie 0 (by decide), hie 1 (by decide), hie 2 (by decide)]
  simp only [getLsbD_statusWord]
  rfl

theorem csActive_iff (s : State) :
    csActive s = true ↔
      s.host.wireMode = .spi3 ∨ (s.host.wireMode = .spi4 ∧ s.st.engState ≠ .idle ∧ s.st.engState ≠ .guard) := by
  unfold csActive
  cases s.host.wireMode
  case uart | spi3 => simp
  case spi4 => cases s.st.engState <;> simp

theorem toNat_rxExpect {s : State} (h : Inv s) :
    (rxExpect s.st).toNat = if s.st.engState = .awaiting then s.st.expN else 0 := by
  unfold rxExpect
  split
  · next he =>
    have hle := h.expN_le (by simp [he])
    rw [BitVec.toNat_ofNat, Nat.mod_eq_of_lt (by omega)]
  · rfl

theorem wireModeCode_eq (m : WireMode) : wireModeCode m = match m with | .uart => 0 | .spi4 => 1 | .spi3 => 2 := by
  cases m <;> rfl

/-- Settles O55: each output by its own lemma. -/
theorem portsFollowTheState : Obligations.PortsFollowTheState := fun s =>
  ⟨irq_eq_bits s, rfl, rfl, rfl, by simp [ports], csActive_iff s, wireModeCode_eq _, rfl, toNat_rxExpect⟩

end Sys2Proof.Machine
end
section
/-! PROOFS. Bad accesses (O15), operands while a command runs (O52), how a command leaves BUSY (O54), and that no step from a
state with the invariant faults (O58). The last two turn on one fact, `engineStep_cases`: outside IDLE the engine moves on
within its transaction, or ends it, or finds a frame that no decoder applies to. -/

namespace Sys2Proof.Machine

/-! ### Bad accesses (R57) -/

theorem accessOk_eq_false {off : BitVec 12} {size : Nat} (h : size ≠ 4 ∨ off.toNat % 4 ≠ 0) :
    accessOk off size = false := by
  simpa [accessOk, imp_iff_not_or] using h

theorem hostWrite_bad {off : BitVec 12} {size : Nat} (h : accessOk off size = false) (w : Word) (s : State) :
    hostWrite off size w s = .next (respond .writeError s) := by
  simp [hostWrite, h]

/-- Settles O15: the access check fails, and both accesses then only respond. -/
theorem badAccessesAreErrors : Obligations.BadAccessesAreErrors := by
  intro off size w s hr hbad
  have hok := accessOk_eq_false hbad
  rw [agentStep_running hr, agentStep_running hr]
  refine ⟨?_, hostWrite_bad hok w s⟩
  rcases hostRead_cases off size s with ⟨h, -⟩ | ⟨-, he⟩
  · cases hok.symm.trans h
  · exact congrArg Host.Outcome.next he

/-! ### Operands (R38, R68) -/

/-- While BUSY = 1 no CSR write reaches DATA, CALCFG, BLK_LIST or a factor. -/
theorem csrWrite_operands (r : Csr) (w : Word) {s : State} (hb : s.busy = true) :
    (csrWrite r w s).host.data = s.host.data ∧ (csrWrite r w s).host.calcfg = s.host.calcfg
      ∧ (csrWrite r w s).host.blkList = s.host.blkList
      ∧ ∀ f, factorRead (csrWrite r w s).host f = factorRead s.host f := by
  rcases csrWrite_cases r w s with ⟨-, he⟩ | ⟨hopen, he⟩ <;> rw [he]
  · exact ⟨rfl, rfl, rfl, fun _ => rfl⟩
  · cases r with
    | data | calcfg | blkList | factor => cases hb.symm.trans hopen
    | devcfg | baud | ie | cfgImage => exact ⟨rfl, rfl, rfl, fun f => by cases f <;> rfl⟩
    | _ => exact ⟨rfl, rfl, rfl, fun _ => rfl⟩

/-- While BUSY = 1 or Resetting no CSR write reaches CFG_IMAGE. -/
theorem csrWrite_cfgImage (r : Csr) (w : Word) {s : State} (hl : s.busy = true ∨ s.rpe.resetting = true) :
    (csrWrite r w s).host.cfgImage = s.host.cfgImage := by
  rcases csrWrite_cases r w s with ⟨-, he⟩ | ⟨hopen, he⟩ <;> rw [he]
  · rfl
  · cases r with
    | cfgImage i =>
      have hlocked : csrLocked s (.cfgImage i) = true := by simpa [csrLocked] using hl
      cases hlocked.symm.trans hopen
    | factor f => cases f <;> rfl
    | _ => rfl

/-- Settles O52: of all steps only a CSR write changes a host register (`stepRunning_cases`), and the lock stops it. -/
theorem operandsStayWhileTheyAreUsed : Obligations.OperandsStayWhileTheyAreUsed := by
  intro e s t hr he h
  rw [agentStep_running hr] at h
  have hosts : t.host = s.host ∨ ∃ r w, t = csrWrite r w (respond .ack s) := by
    rcases stepRunning_cases he h with hk | hw | ⟨w, -, hw⟩
    · exact .inl hk.host
    · exact .inr hw
    · obtain ⟨-, hhost, -⟩ := commandWrite_config hw
      exact .inl hhost
  rcases hosts with hhost | ⟨r, w, rfl⟩
  · rw [hhost]
    exact ⟨fun _ => ⟨rfl, rfl, rfl, fun _ => rfl⟩, fun _ => rfl⟩
  · exact ⟨fun hown => csrWrite_operands r w ((busy_iff _).2 hown),
      fun hl => csrWrite_cfgImage r w (hl.imp_left (busy_iff _).2)⟩

/-! ### CMD writes while BUSY = 1 (R163) -/

theorem busCommand_of_busy {s : State} (hb : s.busy = true) (w : Word) (p : Bool) (run : State → State) :
    busCommand w p run s = overrun s :=
  if_pos hb

theorem pipelineCommand_of_busy {s : State} (hb : s.busy = true) (w : Word) (run : State → State) :
    pipelineCommand w run s = overrun s :=
  if_pos hb

theorem exec_of_busy {i : Instr} {s : State} (hi : i.IsCommand) (hb : s.busy = true) : exec i s = .next (overrun s) := by
  obtain ⟨-, v, henc⟩ := hi
  cases i with
  | wireWrite | wireBroadcast | wireRead | wireBlock => cases henc
  | read | write | broadcast | cfgBlock | blockRead | loadConfig =>
    exact congrArg Host.Outcome.next (busCommand_of_busy hb _ _ _)
  | hex2bcd | calrmsP | calrmsQ | calrmsPb | calrmsQb | calrmsSa | calrmsSb | calrmsU | calrmsI1 | calrmsI2 | calrmsHz =>
    exact congrArg Host.Outcome.next (pipelineCommand_of_busy hb _ _)

/-- A CMD write while BUSY = 1 is dropped, whatever its word. -/
theorem commandWrite_of_busy {s : State} (hb : s.busy = true) (w : Word) : commandWrite w s = .next (overrun s) := by
  unfold commandWrite
  split
  · next hd => exact exec_of_busy (decodeCmd_isCommand hd) hb
  · exact congrArg Host.Outcome.next (if_pos hb)

/-! ### Xfer keeps the owner (R120) -/

@[simp] theorem execute_st_seqOwner (frame : List Byte) (n : Nat) (s : State) :
    (execute frame n s).st.seqOwner = s.st.seqOwner := by
  unfold execute; split <;> rfl

@[simp] theorem xferOf_st_seqOwner (d : Descriptor) (s : State) : (xferOf d s).st.seqOwner = s.st.seqOwner := by
  simp only [xferOf, issue, prepareXfer, execute_st_seqOwner, preIssue_st_seqOwner]; split <;> rfl

@[simp] theorem xfer_st_seqOwner (s : State) : (xfer s).st.seqOwner = s.st.seqOwner := by
  unfold xfer
  split
  · exact xferOf_st_seqOwner _ s
  · rfl

/-! ### The engine's step (R100, R115) -/

/-- Outside IDLE a step answers a next state with the same owner, or it is a transaction end: with an outcome just fixed, or
in HOLD with the outcome that it holds. -/
def MovesOrEnds (s : State) (r : Host.Outcome State Fault Refusal) : Prop :=
  (∃ t, r = .next t ∧ t.st.seqOwner = s.st.seqOwner)
  ∨ ∃ o words, (o ≠ .none ∨ (s.st.engState = .hold ∧ o = s.st.outcome))
      ∧ r = txEnd { s with st := { s.st with outcome := o, respWords := words } }

theorem movesOrEnds_conclude {o : TxOutcome} (ho : o ≠ .none) (s : State) (words : List Word) :
    MovesOrEnds s (conclude o { s with st := { s.st with respWords := words } }) := by
  rcases conclude_cases o { s with st := { s.st with respWords := words } } with ⟨-, he⟩ | ⟨-, he⟩ <;> rw [he]
  · exact .inl ⟨_, rfl, rfl⟩
  · exact .inr ⟨o, words, .inl ho, rfl⟩

theorem takeResponse_cases (s : State) :
    MovesOrEnds s (takeResponse s)
    ∨ (validate s.host.uart s.st.txFrame (s.st.rxFifo.take s.st.expN) = .noDecoder
        ∧ takeResponse s = .fault .strayTransaction) := by
  unfold takeResponse
  cases validate s.host.uart s.st.txFrame (s.st.rxFifo.take s.st.expN) with
  | ok words => exact .inl (movesOrEnds_conclude (by simp) s words)
  | mismatch => exact .inl (movesOrEnds_conclude (by simp) s s.st.respWords)
  | noDecoder => exact .inr ⟨rfl, rfl⟩

/-- What one step of the engine can do. -/
theorem engineStep_cases (txDone : Bool) (s : State) :
    (s.st.engState = .idle ∧ engineStep txDone s = stepIdle s)
    ∨ (s.st.engState ≠ .idle ∧ MovesOrEnds s (engineStep txDone s))
    ∨ (s.st.engState = .awaiting ∧ validate s.host.uart s.st.txFrame (s.st.rxFifo.take s.st.expN) = .noDecoder
        ∧ engineStep txDone s = .fault .strayTransaction) := by
  unfold engineStep
  cases hs : s.st.engState with
  | idle => exact .inl ⟨rfl, rfl⟩
  | guard =>
    refine .inr (.inl ⟨by simp, .inl ⟨_, rfl, ?_⟩⟩)
    rcases stepGuard_cases s with he | ⟨-, -, he⟩ | ⟨-, -, he⟩ <;> rw [he]
  | setup =>
    refine .inr (.inl ⟨by simp, .inl ⟨_, rfl, ?_⟩⟩)
    rcases stepSetup_cases s with he | ⟨-, he⟩ <;> rw [he]
  | sending =>
    refine .inr (.inl ⟨by simp, ?_⟩)
    rcases stepSending_cases txDone s with ⟨-, he⟩ | ⟨-, -, -, he⟩ | ⟨-, -, -, he⟩ <;> dsimp only <;> rw [he]
    · exact .inl ⟨_, rfl, rfl⟩
    · exact .inl ⟨_, rfl, rfl⟩
    · exact movesOrEnds_conclude (by simp) s s.st.respWords
  | awaiting =>
    rcases stepAwaiting_cases s with ⟨-, he⟩ | ⟨-, -, he⟩ | ⟨-, -, he⟩ <;> dsimp only <;> rw [he]
    · exact .inr ((takeResponse_cases s).imp (fun h => ⟨by simp, h⟩) fun h => ⟨rfl, h⟩)
    · exact .inr (.inl ⟨by simp, movesOrEnds_conclude (by simp) s s.st.respWords⟩)
    · exact .inr (.inl ⟨by simp, .inl ⟨_, rfl, rfl⟩⟩)
  | hold =>
    refine .inr (.inl ⟨by simp, ?_⟩)
    rcases stepHold_cases s with ⟨-, he⟩ | ⟨-, he⟩ <;> dsimp only <;> rw [he]
    · exact .inr ⟨s.st.outcome, s.st.respWords, .inr ⟨hs, rfl⟩, rfl⟩
    · exact .inl ⟨_, rfl, rfl⟩

/-! ### How a host command leaves BUSY (R66, R122, R167) -/

/-- The host's command still runs, or it is done and the sequencer is released. -/
def RunsOrDone (s : State) : Prop :=
  s.st.seqOwner = .host ∨ (s.rpe.done = true ∧ s.st.seqOwner = .none ∧ s.st.seqList = [])

theorem runsOrDone_finish {s : State} (hown : s.st.seqOwner = .host) (code cause : BitVec 4) (step : Nat) :
    RunsOrDone (finish code cause step s) := by
  rw [finish_of_busy ((busy_iff s).2 hown)]
  exact .inr ⟨rfl, rfl, rfl⟩

theorem runsOrDone_hostSuccess {s t : State} (hown : s.st.seqOwner = .host) (h : hostSuccess s = some t) :
    RunsOrDone t := by
  obtain ⟨u, rfl, hu⟩ := hostSuccess_cases h
  refine runsOrDone_finish ?_ _ _ _
  rcases hu with rfl | ⟨n, rfl⟩ | ⟨n, -, rfl⟩ <;> exact hown

theorem runsOrDone_sequenceSuccess {s t : State} (hown : s.st.seqOwner = .host) (h : sequenceSuccess s = some t) :
    RunsOrDone t := by
  rw [sequenceSuccess, hown] at h
  exact runsOrDone_hostSuccess hown h

theorem runsOrDone_sequenceFail {s t : State} {o : TxOutcome} (hown : s.st.seqOwner = .host)
    (h : sequenceFail o s = some t) : RunsOrDone t := by
  rw [sequenceFail, hown] at h
  obtain ⟨code, cause, rfl⟩ := hostFail_eq_finish h
  exact runsOrDone_finish hown _ _ _

theorem runsOrDone_continueSequence {s t : State} (hown : s.st.seqOwner = .host) (h : continueSequence s = some t) :
    RunsOrDone t := by
  unfold continueSequence at h
  split at h
  · exact .inl (Option.some.inj h ▸ (xfer_st_seqOwner s).trans hown)
  · exact runsOrDone_sequenceSuccess hown h

/-- The health check opens a recovery phase and leaves DONE and the sequencer as they are (R168). -/
theorem RunsOrDone.healthCheck {s : State} (h : RunsOrDone s) (tripped : Bool) : RunsOrDone (healthCheck tripped s) := by
  cases tripped <;> exact h

theorem runsOrDone_txEnd {s t : State} (hown : s.st.seqOwner = .host) (h : txEnd s = .next t) : RunsOrDone t := by
  obtain ⟨u, hu, rfl⟩ := (txEnd_next_iff s t).1 h
  apply RunsOrDone.healthCheck
  obtain ⟨d, -, ⟨-, hc⟩ | ⟨-, hc⟩ | ⟨-, hf⟩ | ⟨-, hf⟩⟩ := sequencerReacts_cases hu
  · exact runsOrDone_continueSequence (by simpa using hown) hc
  · exact runsOrDone_continueSequence (by simpa using hown) hc
  · exact runsOrDone_sequenceFail (by simpa using hown) hf
  · exact runsOrDone_sequenceFail (by simpa using hown) hf

theorem stepRecovery_of_no_phase {s : State} (h : s.st.recPhase = .none) : stepRecovery s = s := by
  simp [stepRecovery, h]

theorem runsOrDone_stepIdle {s t : State} (hown : s.st.seqOwner = .host) (hphase : s.st.recPhase = .none)
    (h : stepIdle s = .next t) : RunsOrDone t := by
  rw [stepIdle_eq, stepRecovery_of_no_phase hphase] at h
  obtain rfl := Host.Outcome.next.inj h
  split
  · exact .inl ((xferOf_st_seqOwner _ s).trans hown)
  · exact .inl hown

theorem MovesOrEnds.runsOrDone {s t : State} (h : MovesOrEnds s (.next t)) (hown : s.st.seqOwner = .host) :
    RunsOrDone t := by
  rcases h with ⟨u, hu, hkeep⟩ | ⟨o, words, -, hend⟩
  · obtain rfl := Host.Outcome.next.inj hu
    exact .inl (hkeep.trans hown)
  · refine runsOrDone_txEnd ?_ hend.symm
    exact hown

theorem runsOrDone_engineStep {txDone : Bool} {s t : State} (hown : s.st.seqOwner = .host)
    (hphase : s.st.recPhase = .none) (h : engineStep txDone s = .next t) : RunsOrDone t := by
  rcases engineStep_cases txDone s with ⟨-, he⟩ | ⟨-, hm⟩ | ⟨-, -, he⟩
  · exact runsOrDone_stepIdle hown hphase (he ▸ h)
  · exact (h ▸ hm).runsOrDone hown
  · cases he.symm.trans h

theorem hostWrite_busy {off : BitVec 12} {size : Nat} {w : Word} {s t : State} (hown : s.st.seqOwner = .host)
    (h : hostWrite off size w s = .next t) : t.st.seqOwner = .host := by
  unfold hostWrite hostWriteTo at h
  split at h
  · split at h
    · rw [commandWrite_of_busy ((busy_iff (respond .ack s)).2 hown)] at h
      exact Host.Outcome.next.inj h ▸ hown
    · obtain ⟨hst, -⟩ := csrWrite_results (csrAt off) w (respond .ack s)
      obtain rfl := Host.Outcome.next.inj h
      exact (congrArg Hidden.seqOwner hst).trans hown
  · exact Host.Outcome.next.inj h ▸ hown

/-- No other agent than the engine ends BUSY (R66). -/
theorem stepRunning_ends_busy {e : Event} {s t : State} (he : e ≠ .rst true) (hown : s.st.seqOwner = .host)
    (h : stepRunning e s = .next t) : t.st.seqOwner = .host ∨ ∃ txDone, e = .engine txDone := by
  cases e with
  | hostRead off size =>
    obtain rfl := Host.Outcome.next.inj h
    rcases hostRead_cases off size s with ⟨-, he⟩ | ⟨-, he⟩ <;> rw [he] <;> exact .inl hown
  | hostWrite off size w => exact .inl (hostWrite_busy hown h)
  | engine txDone => exact .inr ⟨txDone, rfl⟩
  | channelTx =>
    obtain rfl := Host.Outcome.next.inj h
    rcases channelTxStep_cases s with ⟨-, he⟩ | ⟨b, -, he⟩ <;> rw [he] <;> exact .inl hown
  | channelRx b =>
    obtain rfl := Host.Outcome.next.inj h
    rcases channelRxStep_cases b s with ⟨-, he⟩ | ⟨-, he⟩ <;> rw [he] <;> exact .inl hown
  | tick => exact .inl (Host.Outcome.next.inj h ▸ hown)
  | rst level =>
    cases level
    · exact .inl (Host.Outcome.next.inj h ▸ hown)
    · exact absurd rfl he

/-- Settles O54: the step is the engine's (`stepRunning_ends_busy`), and the engine's step keeps the owner or completes the
command (`runsOrDone_engineStep`). -/
theorem busyEndsWithDone : Obligations.BusyEndsWithDone := by
  intro e s t hr he hphase hown h hended
  rw [agentStep_running hr] at h
  obtain ⟨txDone, rfl⟩ := (stepRunning_ends_busy he hown h).resolve_left hended
  exact ⟨⟨txDone, rfl⟩, (runsOrDone_engineStep hown hphase h).resolve_left hended⟩

/-! ### The frame of a descriptor has a decoder (R102, R114, R119) -/

theorem frameFields_encodeFrame (uart : Bool) (i : Instr) :
    frameFields uart (encodeFrame uart i) = encodeBody i ++ [frameChecksum (encodeBody i)] := by
  cases uart <;> rfl

/-- A descriptor that is no broadcast begins with a CMD1 whose OP is not BROADCAST, and a CMD2. -/
theorem frameFields_frameOf (uart : Bool) (dev : BitVec 2) {d : Descriptor} (hop : d.op ≠ .bcast) :
    ∃ c1 c2 rest, frameFields uart (frameOf uart dev d) = c1 :: c2 :: rest ∧ cmd1Op c1 ≠ opBroadcast := by
  unfold frameOf
  cases h : d.op with
  | bcast => exact absurd h hop
  | write | read | block =>
    exact ⟨_, _, _, frameFields_encodeFrame uart _, by simp [cmd1_fields, opBroadcast, opWrite, opRead, opBlock]⟩

theorem validation_ofDecoder_ne (r : Option (List Word)) : Validation.ofDecoder r ≠ .noDecoder := by
  cases r <;> simp [Validation.ofDecoder]

/-- The OP codes other than BROADCAST are the three that have a decoder. -/
theorem op_has_decoder : ∀ op : BitVec 2, op ≠ opBroadcast → op = opWrite ∨ op = opRead ∨ op = opBlock := by
  decide

theorem validate_ne_noDecoder {uart : Bool} {frame : List Byte} {c1 c2 : Byte} {rest : List Byte}
    (hf : frameFields uart frame = c1 :: c2 :: rest) (hop : cmd1Op c1 ≠ opBroadcast) (resp : List Byte) :
    validate uart frame resp ≠ .noDecoder := by
  simp only [validate, hf]
  rcases op_has_decoder _ hop with h | h | h <;> rw [h] <;> exact validation_ofDecoder_ne _

/-! ### The sequencer always has a clause to run (R122) -/

/-- Each bus command has both completion clauses (R126–R131). -/
theorem clauses_of_busWord {s : State} (h : isBusWord s.st.cmd = true) :
    (∃ t, hostSuccess s = some t) ∧ ∀ o, ∃ t, hostFail o s = some t := by
  unfold isBusWord at h
  unfold hostSuccess hostFail
  cases hd : decodeCmd s.st.cmd with
  | error e => simp [hd] at h
  | ok i =>
    rw [hd] at h
    cases i with
    | read | write | broadcast | cfgBlock | blockRead | loadConfig => exact ⟨⟨_, rfl⟩, fun _ => ⟨_, rfl⟩⟩
    | _ => cases h

/-- The sequence has an owner, and where it is the host, `st.cmd` is a bus command. -/
def HasClauses (s : State) : Prop := s.st.seqOwner ≠ .none ∧ (s.st.seqOwner = .host → isBusWord s.st.cmd = true)

theorem HasClauses.sequenceSuccess {s : State} (h : HasClauses s) : ∃ t, sequenceSuccess s = some t := by
  obtain ⟨hown, hcmd⟩ := h
  unfold Machine.sequenceSuccess
  cases ho : s.st.seqOwner with
  | none => exact absurd ho hown
  | host => exact (clauses_of_busWord (hcmd ho)).1
  | recovery => exact ⟨_, rfl⟩

theorem HasClauses.sequenceFail {s : State} (h : HasClauses s) (o : TxOutcome) : ∃ t, sequenceFail o s = some t := by
  obtain ⟨hown, hcmd⟩ := h
  unfold Machine.sequenceFail
  cases ho : s.st.seqOwner with
  | none => exact absurd ho hown
  | host => exact (clauses_of_busWord (hcmd ho)).2 o
  | recovery => exact ⟨_, rfl⟩

theorem HasClauses.continueSequence {s : State} (h : HasClauses s) : ∃ t, continueSequence s = some t := by
  unfold Machine.continueSequence
  split
  · exact ⟨_, rfl⟩
  · exact h.sequenceSuccess

/-- A fixed outcome of the current descriptor is reacted to (R122). -/
theorem HasClauses.sequencerReacts {s : State} (h : HasClauses s) {d : Descriptor} (hcur : currentDescriptor s = some d)
    (ho : s.st.outcome ≠ .none) : ∃ t, sequencerReacts s = some t := by
  have good : ∀ o, HasClauses (advance (offsetPost d o s)) := fun _ => h
  have bad : ∀ o, HasClauses (offsetPost d o s) := fun _ => h
  unfold Machine.sequencerReacts
  rw [hcur]
  cases hout : s.st.outcome with
  | none => exact absurd hout ho
  | complete | completeNoCheck => exact (good _).continueSequence
  | timedOut | cksumMismatch => exact (bad _).sequenceFail _

/-- A transaction end with an owner, a current descriptor and an outcome is no stray one (log 6). -/
theorem HasClauses.runs_txEnd {s : State} (h : HasClauses s) {d : Descriptor} (hcur : currentDescriptor s = some d)
    (ho : s.st.outcome ≠ .none) : Runs (txEnd s) := by
  have hbooked : HasClauses (bookOutcome (toIdle s)) := h
  obtain ⟨u, hu⟩ := hbooked.sequencerReacts (d := d) hcur ho
  exact ⟨_, (txEnd_next_iff s _).2 ⟨u, hu, rfl⟩⟩

/-! ### The invariant's states run (R110, R122) -/

theorem Inv.hasClauses {s : State} (h : Inv s) (he : s.st.engState ≠ .idle) : HasClauses s :=
  ⟨mt h.owned.1 he, fun hown => (h.hostRuns hown).1⟩

/-- AWAITING expects a response, so its frame is no broadcast's and has a decoder (R112, R114). -/
theorem Inv.response_has_decoder {s : State} (h : Inv s) (hs : s.st.engState = .awaiting) (resp : List Byte) :
    validate s.host.uart s.st.txFrame resp ≠ .noDecoder := by
  obtain ⟨d, -, hframe, hlen⟩ := h.coherent (mt h.owned.1 (by simp [hs]))
  have hop : d.op ≠ .bcast := fun hop => by
    have hpos := h.awaits hs
    simp [hlen, respLen, hop] at hpos
  obtain ⟨c1, c2, rest, hf, hc1⟩ := frameFields_frameOf s.host.uart s.host.devAddr hop
  rw [hframe]
  exact validate_ne_noDecoder hf hc1 resp

theorem Inv.runs_of_movesOrEnds {s : State} (h : Inv s) (he : s.st.engState ≠ .idle)
    {r : Host.Outcome State Fault Refusal} (hm : MovesOrEnds s r) : Runs r := by
  rcases hm with ⟨t, ht, -⟩ | ⟨o, words, ho, rfl⟩
  · exact ⟨t, ht⟩
  · have hclauses := h.hasClauses he
    obtain ⟨d, hcur, -⟩ := h.coherent (mt h.owned.1 he)
    have hfixed : o ≠ .none := by
      rcases ho with ho | ⟨hhold, rfl⟩
      · exact ho
      · exact (h.held hhold).1
    have hends : HasClauses { s with st := { s.st with outcome := o, respWords := words } } := hclauses
    exact hends.runs_txEnd (d := d) hcur hfixed

theorem Inv.runs_engineStep {s : State} (h : Inv s) (txDone : Bool) : Runs (engineStep txDone s) := by
  rcases engineStep_cases txDone s with ⟨-, he⟩ | ⟨hne, hm⟩ | ⟨hs, hv, -⟩
  · exact he ▸ ⟨_, stepIdle_eq s⟩
  · exact h.runs_of_movesOrEnds hne hm
  · exact absurd hv (h.response_has_decoder hs _)

/-- A host write answers a next state in every state (R57, R163). -/
theorem runs_hostWrite (off : BitVec 12) (size : Nat) (w : Word) (s : State) : Runs (hostWrite off size w s) := by
  unfold hostWrite hostWriteTo
  split
  · split
    · exact commandWrite_next w _
    · exact ⟨_, rfl⟩
  · exact ⟨_, rfl⟩

theorem Inv.runs_stepRunning {s : State} (h : Inv s) (e : Event) : Runs (stepRunning e s) := by
  cases e with
  | hostWrite off size w => exact runs_hostWrite off size w s
  | engine txDone => exact h.runs_engineStep txDone
  | hostRead | channelTx | channelRx | tick => exact ⟨_, rfl⟩
  | rst level => cases level <;> exact ⟨_, rfl⟩

/-- Settles O58: only the engine's step could fault, and the invariant gives it a decoder and a clause to run. -/
theorem invariantStatesAlwaysRun : Obligations.InvariantStatesAlwaysRun := by
  intro e s h
  cases hr : s.env.rst
  · exact agentStep_running hr e ▸ h.runs_stepRunning e
  · exact ⟨_, agentStep_in_reset hr e⟩

end Sys2Proof.Machine
end
section
/-! PROOFS. The two encodings (O1–O5) and what an ill-formed command word does (O21). A command word with its reserved bits 0
is the `cmdWord` of its own fields, so the decoder and the encoder meet field by field. A request frame has an even length in
UART and an odd one in SPI, so no byte sequence is a frame of both. -/

namespace Sys2Proof

open Sys2Proof.Machine
open Sys2Proof.Spec (wellFormedWord answered rejected)

/-! ### Command words (R80–R83) -/

/-- NM1 of the count that an NM1 field stands for (R73, R80). -/
theorem nm1Of_countOf (nm1 : BitVec 4) : nm1Of (countOf nm1) = nm1 := by
  simp [nm1Of, countOf]

theorem toNat_cmdDir (w : Word) : (cmdDir w).toNat = w.toNat / 65536 % 2 := by
  simp [cmdDir, BitVec.getLsbD, Nat.toNat_testBit]

/-- A command word as the sum of its shifted fields (R80). -/
theorem toNat_cmdWord (op nm1 : BitVec 4) (arg8 : Byte) (dir : Bool) :
    (cmdWord op nm1 arg8 dir).toNat = op.toNat + 16 * nm1.toNat + 256 * arg8.toNat + 65536 * dir.toNat := by
  simp only [cmdWord, toNat_append_fields, BitVec.ofNat_eq_ofNat, BitVec.toNat_zero, BitVec.toNat_ofBool]
  omega

/-- A word with its reserved bits 0 is made of its own fields: no other bit is left (R80). -/
theorem cmdWord_of_reserved_zero {w : Word} (h : cmdReserved w = 0) :
    cmdWord (cmdOp w) (cmdNm1 w) (cmdArg8 w) (cmdDir w) = w := by
  have hres := (cmdReserved_eq_zero_iff w).1 h
  apply BitVec.eq_of_toNat_eq
  rw [toNat_cmdWord, toNat_cmdOp, toNat_cmdNm1, toNat_cmdArg8, toNat_cmdDir]
  omega

/-- A word decodes by its fields (R81, R83). -/
theorem decodeCmd_cmdWord (op nm1 : BitVec 4) (arg8 : Byte) (dir : Bool) :
    decodeCmd (cmdWord op nm1 arg8 dir) = decodeCmdOp (cmdWord op nm1 arg8 dir) :=
  if_pos (cmdWord_fields op nm1 arg8 dir).1

theorem decodeCmd_eq_ok_iff {w : Word} {i : Instr} :
    decodeCmd w = .ok i ↔ cmdReserved w = 0 ∧ decodeCmdOp w = .ok i := by
  by_cases h : cmdReserved w = 0
  · rw [decodeCmd, if_pos h]
    exact (and_iff_right h).symm
  · rw [decodeCmd, if_neg h]
    exact ⟨nofun, fun hok => absurd hok.1 h⟩

/-- A well-formed command's word decodes to it (R80–R82). -/
theorem decodeCmd_of_encode {i : Instr} {w : Word} (hwf : i.wf = true) (henc : encode i = .cmd w) :
    decodeCmd w = .ok i := by
  cases i with
  | wireWrite | wireBroadcast | wireRead | wireBlock => cases henc
  | read n | cfgBlock n | blockRead n =>
    cases henc
    have hn : countOf (nm1Of n) = n := countOf_nm1Of hwf
    simp [decodeCmd_cmdWord, decodeCmdOp, cmdWord_fields, whenUnused, hn]
  | write | broadcast | loadConfig | hex2bcd =>
    cases henc
    simp [decodeCmd_cmdWord, decodeCmdOp, cmdWord_fields, whenUnused]
  | calrmsP | calrmsQ | calrmsPb | calrmsQb | calrmsSa | calrmsSb | calrmsU | calrmsI1 | calrmsI2 | calrmsHz =>
    cases henc
    simp [decodeCmd_cmdWord, decodeCmdOp, cmdWord_fields, whenUnused, calrmsOfKind]

/-- The CALRMS command of a kind has that kind as its ARG8 (R82). -/
theorem encode_of_calrmsOfKind {k : Byte} {dir : Bool} {i : Instr} (h : calrmsOfKind k dir = .ok i) :
    encode i = .cmd (cmdWord 8 0 k dir) := by
  unfold calrmsOfKind at h
  split at h
  case h_11 => cases h
  all_goals
    next hk =>
    cases h
    obtain ⟨-, rfl⟩ := BitVec.toNat_eq_nat.1 hk
    rfl

/-- What the decoder answers for an OP is encoded as the fields it was read from (R81–R83). -/
theorem encode_of_decodeCmdOp {w : Word} {i : Instr} (h : decodeCmdOp w = .ok i) :
    encode i = .cmd (cmdWord (cmdOp w) (cmdNm1 w) (cmdArg8 w) (cmdDir w)) := by
  unfold decodeCmdOp at h
  split at h
  case h_9 => cases h
  case h_8 hop =>
    obtain ⟨hnm1, hi⟩ := whenUnused_eq_ok_iff.1 h
    rw [(BitVec.toNat_eq_nat.1 hop).2, of_decide_eq_true hnm1]
    exact encode_of_calrmsOfKind hi
  all_goals
    next hop =>
    obtain ⟨hunused, hi⟩ := whenUnused_eq_ok_iff.1 h
    simp only [Bool.and_eq_true, decide_eq_true_eq, Bool.not_eq_true'] at hunused
    cases hi
    simp [(BitVec.toNat_eq_nat.1 hop).2, encode, nm1Of_countOf, hunused]

/-- Settles O2: an accepted word is made of its fields, and those are the ones its instruction is encoded with. -/
theorem encodeUndoesDecode : Obligations.EncodeUndoesDecode := by
  intro w i h
  obtain ⟨hres, hop⟩ := decodeCmd_eq_ok_iff.1 h
  have henc := encode_of_decodeCmdOp hop
  rw [cmdWord_of_reserved_zero hres] at henc
  exact ⟨henc, (decodeCmd_isCommand h).1⟩

/-! ### Which words decode (R83) -/

theorem exists_whenUnused_eq_ok {b : Bool} {d : Decoded Instr} :
    (∃ i, whenUnused b d = .ok i) ↔ b = true ∧ ∃ i, d = .ok i := by
  simp [whenUnused_eq_ok_iff]

theorem exists_calrmsOfKind_eq_ok (k : Byte) (dir : Bool) : (∃ i, calrmsOfKind k dir = .ok i) ↔ k.toNat ≤ 9 := by
  refine ⟨fun ⟨_, h⟩ => kind_le_of_calrmsOfKind h, fun hk => ?_⟩
  generalize h : k.toNat = n at hk
  unfold calrmsOfKind
  rw [h]
  interval_cases n <;> exact ⟨_, rfl⟩

theorem cmdNm1_eq_zero_iff (w : Word) : cmdNm1 w = 0 ↔ w.toNat / 16 % 16 = 0 := by
  rw [← BitVec.toNat_inj, toNat_cmdNm1]
  rfl

theorem cmdArg8_eq_zero_iff (w : Word) : cmdArg8 w = 0 ↔ w.toNat / 256 % 256 = 0 := by
  rw [← BitVec.toNat_inj, toNat_cmdArg8]
  rfl

/-- R83 on the fields of the word. -/
theorem wellFormedWord_iff_fields (w : Word) :
    wellFormedWord w ↔ cmdReserved w = 0
      ∧ (((cmdOp w).toNat = 1 ∧ cmdDir w = false)
        ∨ (((cmdOp w).toNat = 2 ∨ (cmdOp w).toNat = 3) ∧ cmdNm1 w = 0 ∧ cmdDir w = false)
        ∨ (((cmdOp w).toNat = 4 ∨ (cmdOp w).toNat = 5) ∧ cmdArg8 w = 0 ∧ cmdDir w = false)
        ∨ (((cmdOp w).toNat = 6 ∨ (cmdOp w).toNat = 7) ∧ cmdNm1 w = 0 ∧ cmdArg8 w = 0 ∧ cmdDir w = false)
        ∨ ((cmdOp w).toNat = 8 ∧ cmdNm1 w = 0 ∧ (cmdArg8 w).toNat ≤ 9)) := by
  rw [cmdReserved_eq_zero_iff, cmdNm1_eq_zero_iff, cmdArg8_eq_zero_iff, cmdDir_eq_false_iff,
    toNat_cmdOp, toNat_cmdArg8]
  rfl

/-- Settles O3: the reserved bits first, then for each OP the fields it wants 0, and for CALRMS its kind. -/
theorem wellFormedWordsDecode : Obligations.WellFormedWordsDecode := by
  intro w
  simp only [wellFormedWord_iff_fields, decodeCmd_eq_ok_iff, exists_and_left]
  refine and_congr_right fun _ => ?_
  unfold decodeCmdOp
  split
  case h_9 => grind
  all_goals
    next hop => simp [hop, exists_whenUnused_eq_ok, exists_calrmsOfKind_eq_ok, and_assoc]

/-- The decoder refuses a word that R83 does not allow (R84). -/
theorem commandWrite_of_illFormed {w : Word} (h : ¬ wellFormedWord w) (s : State) :
    commandWrite w s = .next (badCommand w s) := by
  unfold commandWrite
  split
  · next i hd => exact absurd ((wellFormedWordsDecode w).1 ⟨i, hd⟩) h
  · rfl

/-- A refused word is latched, and ERR and DONE are written (R84, R164, R167). -/
theorem badCommand_of_not_busy {s : State} (hb : s.busy = false) (w : Word) : badCommand w s = rejected 6 w s := by
  obtain ⟨-, he⟩ := (badCommand_cases w s).resolve_left (by simp [hb])
  have hlatched : (latchCommand w s).busy = false := hb
  rw [he, finish_of_not_busy hlatched]
  rfl

/-- Settles O21: the decoder refuses the word, and the refused word completes at once. -/
theorem illFormedWordsAreBadCommands : Obligations.IllFormedWordsAreBadCommands := by
  intro w s hr hidle hill
  have hb : (answered .ack s).busy = false := (not_busy_iff s).2 hidle
  calc agentStep (.hostWrite 0x00C 4 w) s
      = commandWrite w (answered .ack s) := hostWrite_aligned hr (by decide) w
    _ = .next (badCommand w (answered .ack s)) := commandWrite_of_illFormed hill _
    _ = .next (rejected 6 w (answered .ack s)) := congrArg _ (badCommand_of_not_busy hb w)

/-! ### Bodies and frames (R70–R79) -/

theorem encodeBody_of_encode {i : Instr} {body : List Byte} (h : encode i = .wire body) : encodeBody i = body := by
  cases i <;> cases h <;> rfl

/-- A body is read back from the front of a byte sequence, and the rest is left (R73–R77). -/
theorem decodeBody_append {i : Instr} {body : List Byte} (hwf : i.wf = true) (henc : encode i = .wire body)
    (rest : List Byte) : decodeBody (body ++ rest) = .ok (i, rest) := by
  cases i with
  | wireWrite dev addr data | wireBroadcast dev addr data =>
    cases henc
    have haddr : addr.toNat < 128 := of_decide_eq_true hwf
    simp [decodeBody, decodeBodyOp, decodeData, encodeBody, bytesLe, cmd1_fields, le32_bytesLe, haddr,
      opWrite, opBroadcast]
  | wireRead n dev addr =>
    cases henc
    obtain ⟨hn, haddr⟩ := Bool.and_eq_true_iff.1 hwf
    have haddr : addr.toNat < 128 := of_decide_eq_true haddr
    simp [decodeBody, decodeBodyOp, encodeBody, cmd1_fields, countOf_nm1Of hn, haddr, opWrite, opBroadcast, opRead]
  | wireBlock n dev =>
    cases henc
    have hn : countOf (nm1Of n) = n := countOf_nm1Of hwf
    simp [decodeBody, decodeBodyOp, encodeBody, cmd1_fields, hn, opWrite, opBroadcast, opRead, opBlock]
  | _ => cases henc

/-- Settles O1: a command word is read field by field, a body byte by byte. -/
theorem decodeUndoesEncode : Obligations.DecodeUndoesEncode := by
  intro i hwf
  cases henc : encode i with
  | cmd w => exact decodeCmd_of_encode hwf henc
  | wire body =>
    have hbody := decodeBody_append hwf henc []
    rw [List.append_nil] at hbody
    simp [decode, decodeWholeBody, hbody]

theorem decodeHeaderless_encodeFrame {i : Instr} {body : List Byte} (hwf : i.wf = true) (henc : encode i = .wire body) :
    decodeHeaderless (encodeFrame false i) = .ok i := by
  have hframe : encodeFrame false i = body ++ [frameChecksum (encodeBody i)] := by
    simp [encodeFrame, headerBytes, encodeBody_of_encode henc]
  simp [decodeHeaderless, hframe, decodeBody_append hwf henc, decodeTail]

/-- A well-formed wire operation's frame reads back in the form it was built in (R71, R72, R78). -/
theorem decodeFrame_encodeFrame {i : Instr} {body : List Byte} (hwf : i.wf = true) (henc : encode i = .wire body)
    (uart : Bool) : decodeFrame uart (encodeFrame uart i) = .ok i := by
  cases uart <;> exact decodeHeaderless_encodeFrame hwf henc

theorem length_of_decodeData {rest tail : List Byte} {mk : Word → Instr} {i : Instr}
    (h : decodeData rest mk = .ok (i, tail)) : rest.length = tail.length + 4 := by
  unfold decodeData at h
  split at h
  · cases h
    rfl
  · cases h

/-- A body has an even number of bytes: CMD1, CMD2 and no data or four bytes of it (R70). -/
theorem length_of_decodeBody {bytes tail : List Byte} {i : Instr} (h : decodeBody bytes = .ok (i, tail)) :
    bytes.length % 2 = tail.length % 2 := by
  unfold decodeBody at h
  split at h
  case h_2 => cases h
  next c1 c2 rest =>
    have hdata : rest.length = tail.length ∨ rest.length = tail.length + 4 := by
      unfold decodeBodyOp at h
      split_ifs at h
      · exact .inr (length_of_decodeData h)
      · exact .inr (length_of_decodeData h)
      all_goals
        cases h
        exact .inl rfl
    simp only [List.length_cons]
    omega

/-- A frame without its header ends with one checksum byte, so its length is odd (R78, R79). -/
theorem length_of_decodeHeaderless {bytes : List Byte} {i : Instr} (h : decodeHeaderless bytes = .ok i) :
    bytes.length % 2 = 1 := by
  unfold decodeHeaderless at h
  split at h
  · next j tail hbody =>
    have hlen := length_of_decodeBody hbody
    match tail, h with
    | [_], _ => exact hlen
  · cases h

/-- The header makes the length of a UART frame even (R71). -/
theorem length_of_decodeFrame {uart : Bool} {bytes : List Byte} {i : Instr} (h : decodeFrame uart bytes = .ok i) :
    bytes.length % 2 = if uart then 0 else 1 := by
  cases uart with
  | false => exact length_of_decodeHeaderless h
  | true =>
    match bytes with
    | [] => rfl
    | hdr :: rest =>
      have hhdr : (if hdr = headerByte then decodeHeaderless rest else .error .noHeader) = .ok i := h
      split_ifs at hhdr
      have hodd := length_of_decodeHeaderless hhdr
      simp only [List.length_cons, if_true]
      omega

/-- No byte sequence is a frame of both wire forms. -/
theorem decodeFrame_other_form {uart : Bool} {bytes : List Byte} {i : Instr} (h : decodeFrame uart bytes = .ok i)
    (j : Instr) : decodeFrame (!uart) bytes ≠ .ok j := by
  intro hother
  have hlen := length_of_decodeFrame h
  have hlen' := length_of_decodeFrame hother
  cases uart <;> simp [hlen] at hlen'

/-- Settles O4: the frame reads back in its own form, and so in no other. -/
theorem framesRoundTrip : Obligations.FramesRoundTrip := by
  intro uart i body hwf henc
  have hback := decodeFrame_encodeFrame hwf henc uart
  refine ⟨hback, ?_, rfl, decodeFrame_other_form hback⟩
  rw [encodeFrame, encodeBody_of_encode henc]
  cases uart <;> simp [headerBytes, Nat.add_comm]

/-- Settles O5: each word and each frame is run through its decoder. -/
theorem writtenOutWordsDecode : Obligations.WrittenOutWordsDecode := by
  unfold Obligations.WrittenOutWordsDecode
  decide

end Sys2Proof
end
section
/-! PROOFS. The frame checksum, the request encoders and the response decoders (O6–O9), and the frames that the wire
operations load (O29). The checksum is an offset minus the byte sum, so it tells apart whatever the byte sum does; the
encoders meet the frames of the spec byte by byte. -/

namespace Sys2Proof

open Sys2Proof.Machine
open Sys2Proof.Spec (total ck le cmd1Byte low7 closed writeFrame bcastFrame readFrame blockFrame wordAt launched)

/-! ### The frame checksum (R87–R89) -/

theorem total_cons (b : Byte) (l : List Byte) : total (b :: l) = b.toNat + total l := rfl

/-- The 8-bit sum is the sum of the bytes modulo 256. -/
theorem byteSum_eq_ofNat_total (l : List Byte) : byteSum l = BitVec.ofNat 8 (total l) := by
  induction l with
  | nil => rfl
  | cons b l ih => rw [byteSum, ih, total_cons, BitVec.ofNat_add, BitVec.ofNat_toNat, BitVec.setWidth_eq]

/-- Adding the complement of the sum is taking the sum from one less (R88). -/
theorem frameChecksum_eq_sub (l : List Byte) : frameChecksum l = 0x32 - byteSum l := by
  rw [frameChecksum]
  bv_omega

/-- The checksum as the spec's integer arithmetic gives it (R88). -/
theorem frameChecksum_eq_ck (l : List Byte) : frameChecksum l = ck l := by
  rw [frameChecksum_eq_sub, byteSum_eq_ofNat_total, ck, Int.sub_eq_add_neg, BitVec.ofInt_add, BitVec.ofInt_neg,
    BitVec.ofInt_natCast, BitVec.sub_eq_add_neg]
  rfl

/-- Settles O6: the complement of the unreduced sum `S` is `-S - 1`, so both forms are of one integer. -/
theorem checksumClosedForm : Obligations.ChecksumClosedForm := by
  intro l
  refine ⟨frameChecksum_eq_ck l, ?_⟩
  have hint : (0x33 : Int) + (-(total l : Int) - 1) = 0x32 - total l := by omega
  rw [frameChecksum_eq_ck, ck, hint]

theorem frameChecksum_inj {l m : List Byte} : frameChecksum l = frameChecksum m ↔ byteSum l = byteSum m := by
  rw [frameChecksum_eq_sub, frameChecksum_eq_sub, sub_right_inj]

/-- Replacing a byte moves the sum by the difference of the two. -/
theorem byteSum_set {l : List Byte} {k : Nat} {b : Byte} (h : l[k]? = some b) (c : Byte) :
    byteSum (l.set k c) = byteSum l + (c - b) := by
  induction l generalizing k with
  | nil => simp at h
  | cons x l ih =>
    cases k with
    | zero =>
      obtain rfl : x = b := by simpa using h
      simp only [List.set_cons_zero, byteSum]
      ring
    | succ k =>
      rw [List.set_cons_succ, byteSum, byteSum, ih h, add_assoc]

/-- Changing one byte changes the checksum (R89). -/
theorem frameChecksum_set_ne {l : List Byte} {k : Nat} {b c : Byte} (h : l[k]? = some b) (hbc : b ≠ c) :
    frameChecksum (l.set k c) ≠ frameChecksum l := by
  rw [Ne, frameChecksum_inj, byteSum_set h, add_eq_left, sub_eq_zero]
  exact hbc.symm

/-! ### The response decoders (R95–R97) -/

theorem decodeReadResp_eq_some_iff {c1 c2 : Byte} {n : Nat} {resp : List Byte} {words : List Word} :
    decodeReadResp c1 c2 n resp = some words
      ↔ resp[4 * n]? = some (frameChecksum (c1 :: c2 :: resp.take (4 * n))) ∧ wordsOf n resp = words := by
  simp [decodeReadResp]

theorem decodeReadResp_eq_none_iff {c1 c2 : Byte} {n : Nat} {resp : List Byte} :
    decodeReadResp c1 c2 n resp = none
      ↔ resp[4 * n]? ≠ some (frameChecksum (c1 :: c2 :: resp.take (4 * n))) := by
  simp [decodeReadResp]

/-- A changed checksum byte no longer matches the data (R96). -/
theorem decodeReadResp_set_checksum {c1 c2 : Byte} {n : Nat} {resp : List Byte} {words : List Word} {b c : Byte}
    (hok : decodeReadResp c1 c2 n resp = some words) (hb : resp[4 * n]? = some b) (hbc : b ≠ c) :
    decodeReadResp c1 c2 n (resp.set (4 * n) c) = none := by
  obtain ⟨hck, -⟩ := decodeReadResp_eq_some_iff.1 hok
  have hlt : 4 * n < resp.length := (List.getElem?_eq_some_iff.1 hb).1
  rw [decodeReadResp_eq_none_iff, List.take_set_of_le (le_refl _), List.getElem?_set_self hlt, ← hck, hb]
  exact fun h => hbc (Option.some.inj h).symm

/-- A changed data byte no longer matches the checksum (R89, R96). -/
theorem decodeReadResp_set_data {c1 c2 : Byte} {n : Nat} {resp : List Byte} {words : List Word} {k : Nat} {b c : Byte}
    (hok : decodeReadResp c1 c2 n resp = some words) (hk : k < 4 * n) (hb : resp[k]? = some b) (hbc : b ≠ c) :
    decodeReadResp c1 c2 n (resp.set k c) = none := by
  obtain ⟨hck, -⟩ := decodeReadResp_eq_some_iff.1 hok
  have hsummed : (c1 :: c2 :: resp.take (4 * n))[k + 2]? = some b := (List.getElem?_take_of_lt hk).trans hb
  rw [decodeReadResp_eq_none_iff, List.getElem?_set_ne hk.ne, hck, List.take_set]
  exact fun h => frameChecksum_set_ne hsummed hbc (Option.some.inj h).symm

/-- Settles O7: in the response the changed byte is a summed one or the checksum itself. -/
theorem corruptionIsDetected : Obligations.CorruptionIsDetected := by
  refine ⟨fun l k b c => frameChecksum_set_ne, fun c1 c2 n resp words k b c hlen hok hb hbc => ?_⟩
  have hk : k < resp.length := (List.getElem?_eq_some_iff.1 hb).1
  rcases Nat.lt_or_eq_of_le (show k ≤ 4 * n by omega) with hdata | rfl
  · exact decodeReadResp_set_data hok hdata hb hbc
  · exact decodeReadResp_set_checksum hok hb hbc

theorem toNat_le32 (b0 b1 b2 b3 : Byte) :
    (le32 b0 b1 b2 b3).toNat = b0.toNat + 256 * b1.toNat + 65536 * b2.toNat + 16777216 * b3.toNat := by
  simp only [le32, toNat_append_fields]
  omega

/-- The first word of a response (R13, R77). -/
theorem wordAt_zero (b0 b1 b2 b3 : Byte) (rest : List Byte) :
    wordAt (b0 :: b1 :: b2 :: b3 :: rest) 0 = le32 b0 b1 b2 b3 := by
  apply BitVec.eq_of_toNat_eq
  rw [toNat_le32, wordAt, BitVec.toNat_ofNat]
  simp only [Nat.mul_zero, Nat.zero_add, List.getD_cons_zero, List.getD_cons_succ]
  omega

/-- The other words are those of the response without its first four bytes. -/
theorem wordAt_succ (b0 b1 b2 b3 : Byte) (rest : List Byte) (i : Nat) :
    wordAt (b0 :: b1 :: b2 :: b3 :: rest) (i + 1) = wordAt rest i := rfl

/-- Where the bytes are there, `wordsOf` takes the words one by one (R77). -/
theorem wordsOf_eq_map_wordAt {n : Nat} {resp : List Byte} (h : 4 * n ≤ resp.length) :
    wordsOf n resp = (List.range n).map (wordAt resp) := by
  induction n generalizing resp with
  | zero => rfl
  | succ n ih =>
    match resp with
    | b0 :: b1 :: b2 :: b3 :: rest =>
      have hrest : 4 * n ≤ rest.length := by
        simp only [List.length_cons] at h
        omega
      rw [wordsOf, ih hrest, List.range_succ_eq_map, List.map_cons, List.map_map, wordAt_zero]
      rfl
    | [] | [_] | [_, _] | [_, _, _] =>
      simp only [List.length_cons, List.length_nil] at h
      omega

/-- Settles O9: the decoders test what R95–R97 name, with the checksum in its closed form. -/
theorem decodersJudgeTheResponse : Obligations.DecodersJudgeTheResponse := by
  refine ⟨fun req q r hq => ?_, fun c1 c2 n resp hlen => ⟨?_, rfl⟩⟩
  · simp [decodeWriteResp, hq]
  · rw [decodeReadResp, frameChecksum_eq_ck, wordsOf_eq_map_wordAt (by omega)]
    rfl

/-! ### The request encoders (R90–R94) -/

/-- CMD1 made of its fields is the sum of the shifted fields (R73). -/
theorem cmd1_eq_cmd1Byte (n : Nat) (dev op : BitVec 2) : cmd1 (nm1Of n) dev op = cmd1Byte n dev op.toNat := by
  apply BitVec.eq_of_toNat_eq
  simp only [cmd1, cmd1Byte, nm1Of, toNat_append_fields, BitVec.toNat_ofNat]
  omega

/-- CMD2 of a host address is its low seven bits (R76). -/
theorem cmd2Of_eq_low7 (a : Byte) : cmd2Of a = low7 a := by
  apply BitVec.eq_of_toNat_eq
  have hmask : a.toNat &&& 127 = a.toNat % 128 := Nat.and_two_pow_sub_one_eq_mod a.toNat 7
  rw [cmd2Of, low7, BitVec.toNat_and, BitVec.toNat_ofNat]
  exact hmask.trans (Nat.mod_eq_of_lt (by omega)).symm

/-- The data bytes of a request (R13, R77). -/
theorem bytesLe_eq_le (v : Word) : bytesLe v = le v := rfl

/-- A frame is its body between the header and the closed-form checksum (R70, R71, R78). -/
theorem encodeFrame_eq_closed (uart : Bool) (i : Instr) : encodeFrame uart i = closed uart (encodeBody i) := by
  rw [encodeFrame, frameChecksum_eq_ck]
  rfl

theorem encodeWrite_eq_writeFrame (uart : Bool) (dev : BitVec 2) (a : Byte) (v : Word) :
    encodeWrite uart dev a v = writeFrame uart dev a v := by
  rw [encodeWrite, encodeFrame_eq_closed, encodeBody, cmd2Of_eq_low7, bytesLe_eq_le]
  exact congrArg (fun c => closed uart (c :: low7 a :: le v)) (cmd1_eq_cmd1Byte 1 dev opWrite)

theorem encodeBroadcast_eq_bcastFrame (uart : Bool) (dev : BitVec 2) (a : Byte) (v : Word) :
    encodeBroadcast uart dev a v = bcastFrame uart dev a v := by
  rw [encodeBroadcast, encodeFrame_eq_closed, encodeBody, cmd2Of_eq_low7, bytesLe_eq_le]
  exact congrArg (fun c => closed uart (c :: low7 a :: le v)) (cmd1_eq_cmd1Byte 1 dev opBroadcast)

theorem encodeRead_eq_readFrame (uart : Bool) (dev : BitVec 2) (a : Byte) (n : Nat) :
    encodeRead uart dev a n = readFrame uart dev a n := by
  rw [encodeRead, encodeFrame_eq_closed, encodeBody, cmd2Of_eq_low7, cmd1_eq_cmd1Byte]
  rfl

theorem encodeBlockRead_eq_blockFrame (uart : Bool) (dev : BitVec 2) (n : Nat) :
    encodeBlockRead uart dev n = blockFrame uart dev n := by
  rw [encodeBlockRead, encodeFrame_eq_closed, encodeBody, cmd1_eq_cmd1Byte]
  rfl

/-- Settles O8: header, body and checksum of each request, for every count. -/
theorem encodersBuildTheirFrames : Obligations.EncodersBuildTheirFrames := fun uart dev a v n _ _ =>
  ⟨encodeWrite_eq_writeFrame uart dev a v, encodeBroadcast_eq_bcastFrame uart dev a v,
    encodeRead_eq_readFrame uart dev a n, encodeBlockRead_eq_blockFrame uart dev n⟩

/-! ### The wire operations (R101)

Each hands to Execute the spec's frame and the length of its response (R79, R91–R94). -/

theorem exec_wireWrite (dev : BitVec 2) (a : Byte) (v : Word) (s : State) :
    exec (.wireWrite dev a v) s = .next (execute (writeFrame s.host.uart dev a v) 1 s) := by
  rw [← encodeWrite_eq_writeFrame]
  rfl

theorem exec_wireBroadcast (dev : BitVec 2) (a : Byte) (v : Word) (s : State) :
    exec (.wireBroadcast dev a v) s = .next (execute (bcastFrame s.host.uart dev a v) 0 s) := by
  rw [← encodeBroadcast_eq_bcastFrame]
  rfl

theorem exec_wireRead (n : Nat) (dev : BitVec 2) (a : Byte) (s : State) :
    exec (.wireRead n dev a) s = .next (execute (readFrame s.host.uart dev a n) (4 * n + 1) s) := by
  rw [← encodeRead_eq_readFrame]
  rfl

theorem exec_wireBlock (n : Nat) (dev : BitVec 2) (s : State) :
    exec (.wireBlock n dev) s = .next (execute (blockFrame s.host.uart dev n) (4 * n + 1) s) := by
  rw [← encodeBlockRead_eq_blockFrame]
  rfl

/-- Settles O29: the spec's frame is handed to Execute, which is `launched` in IDLE and nothing elsewhere. -/
theorem wireOperationsLoadTheirFrames : Obligations.WireOperationsLoadTheirFrames := by
  intro n dev a v s _ _
  simp only [exec_wireWrite, exec_wireBroadcast, exec_wireRead, exec_wireBlock]
  refine ⟨fun hidle => ?_, fun hbusy => ?_⟩
  · simp only [execute_of_idle hidle, launched, and_self]
  · simp only [execute_of_not_idle hbusy, and_self]

end Sys2Proof
end
section
/-! PROOFS. The engine's waits in the spec's own arithmetic (O38, O40, O50), the tick (O35), the channel's bytes (O36), and
what ends SENDING (O37). `KeepsTransaction` is the frame of a host access while a transaction is under way. -/

namespace Sys2Proof.Machine

open Sys2Proof.Spec (running reached ceil guardTime timeout fixedTimes sat concluded)

/-! ### Times and counters in the spec's arithmetic (R15, R16, R103–R105, R108) -/

theorem ceilDiv_eq_ceil (a : Nat) {b : Nat} (hb : 0 < b) : ceilDiv a b = ceil a b := by
  have hlt : a % b < b := Nat.mod_lt a hb
  have hdiv : a / b * b + a % b = a := Nat.div_add_mod' a b
  unfold ceilDiv ceil
  split
  · rw [Nat.div_eq_iff hb]
    omega
  · rw [Nat.div_eq_iff hb, Nat.succ_mul]
    omega

theorem elapsed_iff_reached (count : Word) (us : Nat) : elapsed count us = true ↔ reached count us := by
  by_cases h : us = 0 <;> simp [elapsed, ticks, reached, h, Nat.succ_le_iff]

theorem satSucc_eq_sat (x : Word) : satSucc x = sat x := by
  have hx : x.toNat < 2 ^ 32 := x.isLt
  unfold satSucc sat
  split
  · next h => subst h; rfl
  · next h => bv_omega

theorem toNat_baud_pos {h : HostRegs} (hb : h.baud ≠ 0) : 0 < h.baud.toNat :=
  Nat.pos_of_ne_zero fun h0 => hb (BitVec.eq_of_toNat_eq h0)

theorem guardUs_eq_guardTime {s : State} (hb : s.host.baud ≠ 0) : guardUs s.env.cfg s.host = guardTime s := by
  unfold guardUs turnaroundUs guardTime
  rw [ceilDiv_eq_ceil _ (toNat_baud_pos hb)]
  rfl

theorem timeoutUs_eq_timeout {s : State} (hb : s.host.baud ≠ 0) (n : Nat) :
    timeoutUs s.env.cfg s.host n = timeout s n := by
  rw [timeoutUs, ceilDiv_eq_ceil _ (toNat_baud_pos hb), timeout, bitsPerByte, HostRegs.uart]
  simp only [decide_eq_true_eq]
  rfl

/-! ### How the times scale, and that a saturated counter reaches them (R7, R103–R106) -/

/-- Rounding up in two halvings is rounding up once. -/
theorem ceilDiv_two_mul (a : Nat) {b : Nat} (hb : 0 < b) : ceilDiv a (2 * b) = ceil (ceilDiv a b) 2 := by
  have hshift : a + (2 * b - 1) = a + (b - 1) + b := by omega
  calc ceilDiv a (2 * b)
      = (a + (b - 1) + b) / b / 2 := by rw [ceilDiv, hshift, Nat.mul_comm, Nat.div_div_eq_div_mul]
    _ = ceilDiv (ceilDiv a b) 2 := by rw [Nat.add_div_right _ hb]; rfl
    _ = ceil (ceilDiv a b) 2 := ceilDiv_eq_ceil _ (by decide)

theorem ceilDiv_le_self (a : Nat) {b : Nat} (hb : 0 < b) : ceilDiv a b ≤ a := by
  have hmul : a ≤ a * b := Nat.le_mul_of_pos_right a hb
  rw [ceilDiv, Nat.div_le_iff_le_mul hb]
  omega

theorem ticks_lt {us : Nat} (h : us < 2 ^ 32 - 2) : ticks us < 2 ^ 32 - 1 := by
  unfold ticks
  split <;> omega

theorem turnaroundBits_le (c : Params) : c.opn.turnaroundBits ≤ 4000 := by
  have h := c.legal
  simp only [ParamValues.wf, OpenParams.wf, Bool.and_eq_true, decide_eq_true_eq] at h
  tauto

theorem turnaroundUs_le (c : Params) {baud : Word} (hb : 0 < baud.toNat) : turnaroundUs c baud ≤ 4000 * 1000000 :=
  (ceilDiv_le_self _ hb).trans (Nat.mul_le_mul_right _ (turnaroundBits_le c))

/-- The longest response in bits, with the margin (R105). -/
theorem timeoutUs_le {c : Params} {h : HostRegs} {n : Nat} (huart : c.bpbUart ≤ 11) (hspi : c.bpbSpi ≤ 11) (hn : n ≤ 65)
    (hb : 0 < h.baud.toNat) : timeoutUs c h n ≤ 11 * 65 * 1400000 := by
  have hbits : bitsPerByte c h ≤ 11 := by
    unfold bitsPerByte
    split <;> assumption
  exact (ceilDiv_le_self _ hb).trans (Nat.mul_le_mul_right _ (Nat.mul_le_mul hbits hn))

/-- The guard is the turnaround, or one of the fixed times where that is longer (R104). -/
theorem guardUs_eq_turnaround_or_fixed (c : Params) (h : HostRegs) :
    guardUs c h = turnaroundUs c h.baud ∨ guardUs c h ∈ fixedTimes c := by
  unfold guardUs
  cases h.wireMode with
  | uart => exact .inl rfl
  | spi4 => exact (max_choice _ _).imp_right fun he => by simp [he, fixedTimes]
  | spi3 => exact (max_choice _ _).imp_right fun he => by simp [he, fixedTimes]

/-- Settles O50: both rates round the same quotient up, and the longest times are far below the counters' range. -/
theorem timingScalesWithBaud : Obligations.TimingScalesWithBaud := by
  refine ⟨fun c h n b hb hlt => ?_, fun c h n huart hspi hn hbaud => ?_⟩
  · have htwice : (BitVec.ofNat 32 (2 * b)).toNat = 2 * b := Nat.mod_eq_of_lt hlt
    have honce : (BitVec.ofNat 32 b).toNat = b := Nat.mod_eq_of_lt (by omega)
    simp only [timeoutUs, htwice, honce]
    exact ceilDiv_two_mul _ hb
  · have hpos := toNat_baud_pos hbaud
    have htimeout : ticks (timeoutUs c h n) < 2 ^ 32 - 1 :=
      ticks_lt ((timeoutUs_le huart hspi hn hpos).trans_lt (by decide))
    have hturn : ticks (turnaroundUs c h.baud) < 2 ^ 32 - 1 := ticks_lt ((turnaroundUs_le c hpos).trans_lt (by decide))
    refine ⟨htimeout, hturn, fun hroom => ?_⟩
    have hfixed : ∀ us ∈ fixedTimes c, ticks us < 2 ^ 32 - 1 := fun us hus => ticks_lt (hroom us hus)
    refine ⟨?_, hfixed⟩
    rcases guardUs_eq_turnaround_or_fixed c h with he | hmem
    · exact he ▸ hturn
    · exact hfixed _ hmem

/-! ### The tick (R108) -/

theorem gapCounts_iff (st : Hidden) : gapCounts st = true ↔ st.engState = .idle ∨ st.engState = .guard := by
  simp [gapCounts]

theorem waitCounts_iff (st : Hidden) :
    waitCounts st = true ↔ st.engState = .setup ∨ st.engState = .awaiting ∨ st.engState = .hold
      ∨ st.recPhase = .preHigh ∨ st.recPhase = .low ∨ st.recPhase = .postWait := by
  simp [waitCounts, or_assoc]

/-- Settles O35: the two counters' conditions and the saturation, each by its own lemma. -/
theorem tickCounts : Obligations.TickCounts := by
  intro s hr
  rw [agentStep_running hr]
  simp only [stepRunning, tickStep, gapCounts_iff, waitCounts_iff, satSucc_eq_sat]

/-! ### The channel's bytes (R109, R111) -/

theorem offeredByte_of_sending {st : Hidden} (h : st.engState = .sending) : offeredByte st = st.txFrame[st.txIdx]? :=
  if_pos h

theorem offeredByte_eq_none {st : Hidden} (h : st.engState ≠ .sending ∨ st.txFrame.length ≤ st.txIdx) :
    offeredByte st = none := by
  rcases h with hstate | hend
  · exact if_neg hstate
  · unfold offeredByte
    rw [List.getElem?_eq_none hend, ite_self]

/-- Settles O36: what the channel does follows the byte on offer, and what a received byte does the FIFO's length. -/
theorem channelBytes : Obligations.ChannelBytes := by
  refine ⟨fun s hr hs b hb => ?_, fun s hr hnone => ?_, fun b s hr => ⟨fun hroom => ?_, fun hfull => ?_⟩⟩
  · have hoffer : offeredByte s.st = some b := (offeredByte_of_sending hs).trans hb
    rw [agentStep_running hr]
    simp [ports, stepRunning, channelTxStep, hoffer]
  · have hoffer : offeredByte s.st = none := offeredByte_eq_none hnone
    rw [agentStep_running hr]
    simp [ports, stepRunning, channelTxStep, hoffer]
  · rw [agentStep_running hr]
    exact congrArg Host.Outcome.next (if_pos hroom)
  · rw [agentStep_running hr]
    exact congrArg Host.Outcome.next (if_neg (Nat.not_lt.2 hfull))

/-! ### A transaction under way (R101, R110) -/

/-- The engine's state, its frame, the bytes handed over and the bytes to come stay. The default proofs are for an
update that leaves them alone. -/
structure KeepsTransaction (s t : State) : Prop where
  engState : t.st.engState = s.st.engState := by rfl
  txFrame : t.st.txFrame = s.st.txFrame := by rfl
  txIdx : t.st.txIdx = s.st.txIdx := by rfl
  expN : t.st.expN = s.st.expN := by rfl

theorem KeepsTransaction.trans {s t u : State} (h : KeepsTransaction s t) (g : KeepsTransaction t u) :
    KeepsTransaction s u where
  engState := g.engState.trans h.engState
  txFrame := g.txFrame.trans h.txFrame
  txIdx := g.txIdx.trans h.txIdx
  expN := g.expN.trans h.expN

theorem keepsTransaction_prepareXfer (d : Descriptor) (s : State) : KeepsTransaction s (prepareXfer d s) := by
  unfold prepareXfer
  split <;> exact {}

/-- A sequence that starts outside IDLE issues nothing: Execute is not enabled (R101). -/
theorem keepsTransaction_startSeq {s : State} (hs : s.st.engState ≠ .idle) (owner : Owner) (l : List Descriptor) :
    KeepsTransaction s (startSeq owner l s) := by
  cases l with
  | nil => exact {}
  | cons d ds =>
    have hprep := KeepsTransaction.trans (s := s) {} (keepsTransaction_prepareXfer d
      { s with st := { s.st with seqOwner := owner, seqList := d :: ds, seqStep := 0 } })
    rw [startSeq_cons, xferOf, issue, execute_of_not_idle (hprep.engState.trans_ne hs)]
    exact hprep

theorem keepsTransaction_startSeq_clearHandle {s : State} (hs : s.st.engState ≠ .idle) (owner : Owner)
    (l : List Descriptor) : KeepsTransaction s (startSeq owner l (clearHandle s)) :=
  KeepsTransaction.trans (t := clearHandle s) {} (keepsTransaction_startSeq (s := clearHandle s) hs owner l)

theorem keepsTransaction_startSeq_latchCksum {s : State} (hs : s.st.engState ≠ .idle) (owner : Owner)
    (l : List Descriptor) (ck : Word) : KeepsTransaction s (startSeq owner l (latchCksum ck s)) :=
  KeepsTransaction.trans (t := latchCksum ck s) {} (keepsTransaction_startSeq (s := latchCksum ck s) hs owner l)

theorem keepsTransaction_busCommand {s : State} (w : Word) (p : Bool) {run : State → State}
    (hrun : ∀ u : State, u.st.engState = s.st.engState → KeepsTransaction u (run u)) :
    KeepsTransaction s (busCommand w p run s) := by
  rcases busCommand_cases w p run s with
    ⟨-, he⟩ | ⟨-, -, he⟩ | ⟨-, -, -, he⟩ | ⟨-, -, -, -, he⟩ | ⟨-, -, -, -, he⟩ <;> rw [he]
  case inr.inr.inr.inr => exact KeepsTransaction.trans {} (hrun _ rfl)
  all_goals exact {}

theorem keepsTransaction_pipelineCommand {s : State} (w : Word) {run : State → State}
    (hrun : KeepsTransaction s (run (latchCommand w s))) : KeepsTransaction s (pipelineCommand w run s) := by
  rcases pipelineCommand_cases w run s with ⟨-, he⟩ | ⟨-, he⟩ <;> rw [he]
  · exact {}
  · exact hrun

/-- No command word touches a transaction under way. -/
theorem keepsTransaction_exec {i : Instr} {s t : State} (hi : i.IsCommand) (hs : s.st.engState ≠ .idle)
    (h : exec i s = .next t) : KeepsTransaction s t := by
  obtain ⟨-, v, henc⟩ := hi
  cases i with
  | wireWrite | wireBroadcast | wireRead | wireBlock => cases henc
  | read | write | broadcast | blockRead =>
    obtain rfl := Host.Outcome.next.inj h
    exact keepsTransaction_busCommand _ _ fun u hu => keepsTransaction_startSeq (hu.trans_ne hs) _ _
  | cfgBlock =>
    obtain rfl := Host.Outcome.next.inj h
    exact keepsTransaction_busCommand _ _ fun u hu => keepsTransaction_startSeq_clearHandle (hu.trans_ne hs) _ _
  | loadConfig =>
    obtain rfl := Host.Outcome.next.inj h
    exact keepsTransaction_busCommand _ _ fun u hu => keepsTransaction_startSeq_latchCksum (hu.trans_ne hs) _ _ _
  | hex2bcd | calrmsP | calrmsQ | calrmsPb | calrmsQb | calrmsSa | calrmsSb | calrmsU | calrmsI1 | calrmsI2
  | calrmsHz =>
    obtain rfl := Host.Outcome.next.inj h
    exact keepsTransaction_pipelineCommand _ {}

theorem keepsTransaction_commandWrite {w : Word} {s t : State} (hs : s.st.engState ≠ .idle)
    (h : commandWrite w s = .next t) : KeepsTransaction s t := by
  unfold commandWrite at h
  split at h
  · next hd => exact keepsTransaction_exec (decodeCmd_isCommand hd) hs h
  · obtain rfl := Host.Outcome.next.inj h
    rcases badCommand_cases w s with ⟨-, he⟩ | ⟨-, he⟩ <;> exact he ▸ {}

/-- No host access touches a transaction under way (R171). -/
theorem keepsTransaction_hostWrite {off : BitVec 12} {size : Nat} {w : Word} {s t : State} (hs : s.st.engState ≠ .idle)
    (h : hostWrite off size w s = .next t) : KeepsTransaction s t := by
  unfold hostWrite hostWriteTo at h
  split at h
  · split at h
    · exact KeepsTransaction.trans (t := respond .ack s) {} (keepsTransaction_commandWrite hs h)
    · obtain ⟨hst, -⟩ := csrWrite_results (csrAt off) w (respond .ack s)
      obtain rfl := Host.Outcome.next.inj h
      exact ⟨congrArg Hidden.engState hst, congrArg Hidden.txFrame hst, congrArg Hidden.txIdx hst,
        congrArg Hidden.expN hst⟩
  · exact Host.Outcome.next.inj h ▸ {}

theorem engineStep_sending_of_not_done {s : State} (hs : s.st.engState = .sending) : engineStep false s = .next s := by
  simp [engineStep, hs, stepSending]

/-- In SENDING only the channel, `tx_done` and block reset move the transaction (R110). -/
theorem keepsTransaction_of_sending {e : Event} {s t : State} (hs : s.st.engState = .sending) (htx : e ≠ .channelTx)
    (hdone : e ≠ .engine true) (hrst : e ≠ .rst true) (h : stepRunning e s = .next t) : KeepsTransaction s t := by
  cases e with
  | hostRead off size =>
    obtain rfl := Host.Outcome.next.inj h
    rcases hostRead_cases off size s with ⟨-, he⟩ | ⟨-, he⟩ <;> exact he ▸ {}
  | hostWrite off size w => exact keepsTransaction_hostWrite (by simp [hs]) h
  | engine txDone =>
    obtain rfl : txDone = false := by simpa using hdone
    exact Host.Outcome.next.inj ((engineStep_sending_of_not_done hs).symm.trans h) ▸ {}
  | channelTx => exact absurd rfl htx
  | channelRx b =>
    obtain rfl := Host.Outcome.next.inj h
    rcases channelRxStep_cases b s with ⟨-, he⟩ | ⟨-, he⟩ <;> exact he ▸ {}
  | tick => exact Host.Outcome.next.inj h ▸ {}
  | rst level =>
    cases level
    · exact Host.Outcome.next.inj h ▸ {}
    · exact absurd rfl hrst

/-- Settles O37: the transaction stays (`keepsTransaction_of_sending`); only an engine step could end BUSY, and without
`tx_done` it does nothing. -/
theorem sendingOutlivesTheHost : Obligations.SendingOutlivesTheHost := by
  intro e s t hr hs htx hdone hrst h
  rw [agentStep_running hr] at h
  obtain ⟨heng, hframe, hidx, -⟩ := keepsTransaction_of_sending hs htx hdone hrst h
  refine ⟨heng.trans hs, hidx, hframe, fun hown => ?_⟩
  rcases stepRunning_ends_busy hrst hown h with hbusy | ⟨txDone, rfl⟩
  · exact hbusy
  · obtain rfl : txDone = false := by simpa using hdone
    exact Host.Outcome.next.inj ((engineStep_sending_of_not_done hs).symm.trans h) ▸ hown

/-! ### The engine's states that wait (R100, R104, R107, R112) -/

theorem stepGuard_eq {s : State} (hb : s.host.baud ≠ 0) :
    stepGuard s =
      if reached s.st.gapTicks (guardTime s) then
        if s.host.wireMode = .spi4 then { s with st := { s.st with engState := .setup, waitTicks := 0 } }
        else { s with st := { s.st with engState := .sending } }
      else s := by
  simp only [stepGuard, elapsed_iff_reached, guardUs_eq_guardTime hb]

/-- Settles O38: in each state the step is that state's own, and its wait is over when the spec's is. -/
theorem engineStatesTakeTheirTime : Obligations.EngineStatesTakeTheirTime := by
  intro txDone s hr hb
  rw [agentStep_running hr, stepRunning, engineStep]
  refine ⟨fun hs => ?_, fun hs => ?_, fun hs => ?_, fun hs => ?_⟩ <;> simp only [hs]
  · rw [stepGuard_eq hb]
  · simp only [stepSetup, elapsed_iff_reached]
  · rcases stepSending_cases txDone s with ⟨hwait, he⟩ | ⟨hall, hdone, hexp, he⟩ | ⟨hall, hdone, hexp, he⟩ <;> rw [he]
    · rw [if_neg hwait]
    · rw [if_pos ⟨hall, hdone⟩, if_neg hexp.ne']
    · rw [if_pos ⟨hall, hdone⟩, if_pos hexp]
      rfl
  · simp only [stepHold, elapsed_iff_reached]

/-- Settles O40: the length is looked at first, then the wait, which is over when the spec's is. -/
theorem awaitingTimesOut : Obligations.AwaitingTimesOut := by
  intro txDone s hr hs hb hshort
  rw [agentStep_running hr, stepRunning, engineStep]
  simp only [hs, stepAwaiting, if_neg (Nat.not_le.2 hshort), elapsed_iff_reached, timeoutUs_eq_timeout hb]
  rfl

end Sys2Proof.Machine
end
section
/-! PROOFS. How AWAITING judges a complete response (O39): the frame's own operation names the decoder, and the decoder's
test decides between the two outcomes. -/

namespace Sys2Proof.Machine

open Sys2Proof.Spec (frame responseLength concluded ck wordAt)

/-! ### A descriptor's frame and the decoder of its response (R114, R119) -/

theorem frameOf_eq_frame (s : State) (d : Descriptor) : frameOf s.host.uart s.host.devAddr d = frame s d := by
  unfold frameOf frame
  cases d.op with
  | write => exact encodeWrite_eq_writeFrame ..
  | read => exact encodeRead_eq_readFrame ..
  | bcast => exact encodeBroadcast_eq_bcastFrame ..
  | block => exact encodeBlockRead_eq_blockFrame ..

theorem validate_encodeWrite (uart : Bool) (dev : BitVec 2) (a : Byte) (v : Word) (resp : List Byte) :
    validate uart (encodeWrite uart dev a v) resp = .ofDecoder (decodeWriteResp (encodeWrite uart dev a v) resp) := by
  have hfields : frameFields uart (encodeWrite uart dev a v) = _ := frameFields_encodeFrame uart _
  simp [validate, hfields, encodeBody, cmd1_fields]

theorem validate_encodeRead {n : Nat} (hn : countOk n = true) (uart : Bool) (dev : BitVec 2) (a : Byte)
    (resp : List Byte) :
    validate uart (encodeRead uart dev a n) resp
      = .ofDecoder (decodeReadResp (cmd1 (nm1Of n) dev opRead) (cmd2Of a) n resp) := by
  have hfields : frameFields uart (encodeRead uart dev a n) = _ := frameFields_encodeFrame uart _
  simp [validate, hfields, encodeBody, cmd1_fields, countOf_nm1Of hn, opRead, opWrite]

theorem validate_encodeBlockRead {n : Nat} (hn : countOk n = true) (uart : Bool) (dev : BitVec 2) (resp : List Byte) :
    validate uart (encodeBlockRead uart dev n) resp
      = .ofDecoder (decodeReadResp (cmd1 (nm1Of n) dev opBlock) 0x00 n resp) := by
  have hfields : frameFields uart (encodeBlockRead uart dev n) = _ := frameFields_encodeFrame uart _
  simp [validate, hfields, encodeBody, cmd1_fields, countOf_nm1Of hn, opRead, opWrite, opBlock, decodeBlockResp]

/-! ### The outcome of the validation (R113, R114) -/

/-- A decoder that answers by a test concludes COMPLETE with its words, or CKSUM_MISMATCH. -/
theorem takeResponse_of_test {s : State} {p : Prop} [Decidable p] {words : List Word}
    (h : validate s.host.uart s.st.txFrame (s.st.rxFifo.take s.st.expN)
      = .ofDecoder (if p then some words else none)) :
    takeResponse s =
      if p then concluded .complete { s with st := { s.st with respWords := words } }
      else concluded .cksumMismatch s := by
  unfold takeResponse
  rw [h]
  by_cases hp : p
  · rw [if_pos hp, if_pos hp]
    rfl
  · rw [if_neg hp, if_neg hp]
    rfl

/-- The response to a Write is its one byte, the echo of the request's last (R95). -/
theorem takeResponse_write {s : State} {dev : BitVec 2} {a : Byte} {v : Word}
    (hframe : s.st.txFrame = encodeWrite s.host.uart dev a v) (hlen : s.st.expN = 1) :
    takeResponse s =
      if s.st.rxFifo[0]? = s.st.txFrame.getLast? then concluded .complete { s with st := { s.st with respWords := [] } }
      else concluded .cksumMismatch s := by
  apply takeResponse_of_test
  rw [hframe, validate_encodeWrite, decodeWriteResp, hlen, List.head?_eq_getElem?,
    List.getElem?_take_of_lt Nat.zero_lt_one]

/-- A word depends on its own four bytes alone (R77). -/
theorem wordAt_take {resp : List Byte} {i k : Nat} (h : 4 * i + 4 ≤ k) : wordAt (resp.take k) i = wordAt resp i := by
  have hbyte : ∀ j < k, (resp.take k).getD j 0 = resp.getD j 0 := fun j hj => by
    rw [List.getD_eq_getElem?_getD, List.getD_eq_getElem?_getD, List.getElem?_take_of_lt hj]
  rw [wordAt, wordAt, hbyte _ (by omega), hbyte _ (by omega), hbyte _ (by omega), hbyte _ (by omega)]

/-- The decoder looks at the first 4N + 1 bytes alone (R79, R96). -/
theorem decodeReadResp_take {n : Nat} {resp : List Byte} (h : 4 * n + 1 ≤ resp.length) (c1 c2 : Byte) :
    decodeReadResp c1 c2 n (resp.take (4 * n + 1)) =
      if resp[4 * n]? = some (ck ([c1, c2] ++ resp.take (4 * n))) then some ((List.range n).map (wordAt resp))
      else none := by
  have hlen : 4 * n ≤ (resp.take (4 * n + 1)).length := by
    rw [List.length_take]
    omega
  have hwords : wordsOf n (resp.take (4 * n + 1)) = (List.range n).map (wordAt resp) := by
    rw [wordsOf_eq_map_wordAt hlen]
    refine List.map_congr_left fun i hi => wordAt_take ?_
    have hlt := List.mem_range.1 hi
    omega
  rw [decodeReadResp, hwords, frameChecksum_eq_ck, List.getElem?_take_of_lt (Nat.lt_succ_self _), List.take_take,
    Nat.min_eq_left (Nat.le_succ _)]
  rfl

/-- The response to a Read or Block is N words and the checksum over CMD1, CMD2 and the data (R96, R97). -/
theorem takeResponse_words {s : State} {c1 c2 : Byte} {n : Nat}
    (hval : ∀ resp, validate s.host.uart s.st.txFrame resp = .ofDecoder (decodeReadResp c1 c2 n resp))
    (hlen : s.st.expN = 4 * n + 1) (hall : s.st.expN ≤ s.st.rxFifo.length) :
    takeResponse s =
      if s.st.rxFifo[4 * n]? = some (ck ([c1, c2] ++ s.st.rxFifo.take (4 * n))) then
        concluded .complete { s with st := { s.st with respWords := (List.range n).map (wordAt s.st.rxFifo) } }
      else concluded .cksumMismatch s := by
  apply takeResponse_of_test
  rw [hval, hlen, decodeReadResp_take (hlen ▸ hall)]

/-- Settles O39: the response is complete, so the step validates it, with the decoder of the descriptor's operation. -/
theorem awaitingJudgesItsResponse : Obligations.AwaitingJudgesItsResponse := by
  intro d txDone s hr hs hframe hlen hall
  have hstep : agentStep (.engine txDone) s = takeResponse s := by
    rw [agentStep_running hr, stepRunning, engineStep, hs]
    exact if_pos hall
  rw [← frameOf_eq_frame] at hframe
  rw [hstep]
  refine ⟨fun hop => ?_, fun n h1 h16 hv hop => ?_⟩
  · simp only [frameOf, hop] at hframe
    simp only [responseLength, hop] at hlen
    exact takeResponse_write hframe hlen
  · have hn : countOk n = true := (countOk_iff n).2 ⟨h1, h16⟩
    have hvn : d.v.toNat = n := by
      rw [hv, BitVec.toNat_ofNat]
      omega
    rcases hop with hop | hop
    · simp only [frameOf, hop, hvn] at hframe
      simp only [responseLength, hop, hvn] at hlen
      rw [takeResponse_words (fun resp => hframe ▸ validate_encodeRead hn _ _ _ resp) hlen hall, cmd1_eq_cmd1Byte,
        cmd2Of_eq_low7]
      simp only [hop, if_true]
      rfl
    · simp only [frameOf, hop, hvn] at hframe
      simp only [responseLength, hop, hvn] at hlen
      rw [takeResponse_words (fun resp => hframe ▸ validate_encodeBlockRead hn _ _ resp) hlen hall, cmd1_eq_cmd1Byte]
      simp only [hop, reduceCtorEq, if_false]
      rfl

end Sys2Proof.Machine
end
section
/-! PROOFS. Xfer in the spec's own terms, and with it the instruction that a step runs (O60) and the transaction end: the one
that goes on (O44), and the one that ends its command and starts a recovery (O43). -/

namespace Sys2Proof.Machine

open Sys2Proof.Spec (running answered offsetFor switchFor mustSwitch dropsHandle issued transferred
  failing good booked errorOf failedCommand completed)

/-! ### Xfer (R119, R120, R125) -/

theorem modeFor_eq_offsetFor (a : Byte) : modeFor a = offsetFor a := by
  by_cases h : a.toNat < 0x80
  · rw [modeFor, offsetFor, if_neg (Nat.not_le.2 h), if_pos h]
  · rw [modeFor, offsetFor, if_pos (Nat.not_lt.1 h), if_neg h]

theorem cmd2Of_eq_offsetRegister_iff : ∀ a : Byte, cmd2Of a = 0x7F ↔ a.toNat % 128 = 0x7F := by decide

theorem not_uart_iff (h : HostRegs) : h.uart = false ↔ h.wireMode = .spi4 ∨ h.wireMode = .spi3 := by
  unfold HostRegs.uart
  cases h.wireMode <;> simp

theorem op_ne_block_iff (d : Descriptor) : d.op ≠ .block ↔ d.op = .write ∨ d.op = .read ∨ d.op = .bcast := by
  cases d.op <;> simp

theorem needsSwitch_iff_mustSwitch (s : State) (d : Descriptor) : needsSwitch s d = true ↔ mustSwitch s d := by
  rw [needsSwitch_iff, not_uart_iff, Descriptor.Addressed, op_ne_block_iff, Ne, cmd2Of_eq_offsetRegister_iff,
    modeFor_eq_offsetFor, and_assoc]

theorem switchTo_eq_switchFor (s : State) (d : Descriptor) : switchTo s.env.cfg (modeFor d.a) = switchFor s d := by
  unfold switchTo switchFor magic modeFor
  by_cases h : d.a.toNat < 0x80
  · simp [h, Nat.not_le.2 h]
  · simp [h, Nat.not_lt.1 h]

theorem issuedFor_eq (s : State) (d : Descriptor) : issuedFor s d = if mustSwitch s d then switchFor s d else d := by
  simp only [issuedFor, needsSwitch_iff_mustSwitch, switchTo_eq_switchFor]

theorem touchesBlockList_iff (s : State) (d : Descriptor) :
    touchesBlockList s.env.cfg s.host.uart d = true ↔ dropsHandle s d := by
  have haddrs : sysBlkAddrs s.env.cfg s.host.uart = Spec.sysBlk s := by
    simp only [sysBlkAddrs, Spec.sysBlk, uart_iff]
  simp [touchesBlockList, isSysBlkAddr, haddrs, and_assoc]

/-- The pre-issue effect and Execute, with the engine IDLE. -/
theorem issue_preIssue_eq_issued {s : State} (hidle : s.st.engState = .idle) (d : Descriptor) :
    issue d (preIssue d s) = issued d s := by
  have hidle' : (preIssue d s).st.engState = .idle := hidle
  have hvalid : (s.st.blkValid && !touchesBlockList s.env.cfg s.host.uart d)
      = if dropsHandle s d then false else s.st.blkValid := by
    by_cases h : dropsHandle s d
    · rw [if_pos h, (touchesBlockList_iff s d).2 h, Bool.not_true, Bool.and_false]
    · rw [if_neg h, Bool.eq_false_iff.2 (mt (touchesBlockList_iff s d).1 h), Bool.not_false, Bool.and_true]
  rw [issue, execute_of_idle hidle', frameOf_eq_frame]
  simp only [preIssue, hvalid, touchesBlockList_iff]
  rfl

theorem insertIdx_eq_take_append_cons_drop {α : Type} (a : α) {l : List α} {i : Nat} (h : i ≤ l.length) :
    l.insertIdx i a = l.take i ++ a :: l.drop i := by
  induction l generalizing i with
  | nil =>
    obtain rfl : i = 0 := Nat.le_zero.1 h
    rfl
  | cons b l ih =>
    cases i with
    | zero => rfl
    | succ i => rw [List.insertIdx_succ_cons, ih (Nat.le_of_succ_le_succ h)]; rfl

theorem seqStep_lt_of_current {s : State} {d : Descriptor} (hcur : currentDescriptor s = some d) :
    s.st.seqStep < s.st.seqList.length :=
  (List.getElem?_eq_some_iff.1 hcur).1

/-- Xfer of the current descriptor, with the engine IDLE. -/
theorem xferOf_eq_transferred {s : State} {d : Descriptor} (hidle : s.st.engState = .idle)
    (hcur : currentDescriptor s = some d) : xferOf d s = transferred d s := by
  unfold transferred
  by_cases hsw : mustSwitch s d
  · have hinsert : insertSwitch d s
        = { s with st := { s.st with seqList := s.st.seqList.insertIdx s.st.seqStep (switchFor s d) } } := by
      rw [insertSwitch, switchTo_eq_switchFor, insertIdx_eq_take_append_cons_drop _ (seqStep_lt_of_current hcur).le]
    rw [if_pos hsw, xferOf_switch ((needsSwitch_iff_mustSwitch s d).2 hsw), switchTo_eq_switchFor, ← hinsert]
    exact issue_preIssue_eq_issued (s := insertSwitch d s) hidle _
  · have hplain : needsSwitch s d = false := by simpa using mt (needsSwitch_iff_mustSwitch s d).1 hsw
    rw [if_neg hsw, xferOf_plain hplain]
    exact issue_preIssue_eq_issued hidle d

/-! ### The instruction of a step (R101, R120, R164) -/

theorem frameOf_eq_encodeFrame (uart : Bool) (dev : BitVec 2) (d : Descriptor) :
    frameOf uart dev d = encodeFrame uart (wireInstrOf dev d) := by
  unfold frameOf wireInstrOf
  cases d.op <;> rfl

theorem cmd2Ok_cmd2Of : ∀ a : Byte, cmd2Ok (cmd2Of a) = true := by decide

/-- A descriptor's wire instruction is a well-formed one with a body (R73–R77). -/
theorem wireInstrOf_wf {d : Descriptor} (h : descriptorOk d = true) (dev : BitVec 2) :
    (wireInstrOf dev d).wf = true ∧ ∃ body, encode (wireInstrOf dev d) = .wire body := by
  unfold descriptorOk at h
  unfold wireInstrOf
  cases hop : d.op with
  | write | bcast => exact ⟨cmd2Ok_cmd2Of d.a, _, rfl⟩
  | read =>
    rw [hop] at h
    exact ⟨Bool.and_eq_true_iff.2 ⟨h, cmd2Ok_cmd2Of d.a⟩, _, rfl⟩
  | block =>
    rw [hop] at h
    exact ⟨h, _, rfl⟩

theorem descriptorOk_issuedFor {s : State} {d : Descriptor} (h : descriptorOk d = true) :
    descriptorOk (issuedFor s d) = true := by
  unfold issuedFor
  split
  · rfl
  · exact h

/-- What the issued frame decodes to is the fetched instruction. -/
theorem eq_fetchedWire_of_decodeFrame {s : State} {d : Descriptor} {i : Instr} (hok : descriptorOk d = true)
    (h : decodeFrame s.host.uart (frameOf s.host.uart s.host.devAddr (issuedFor s d)) = .ok i) :
    i = fetchedWire s d := by
  obtain ⟨hwf, body, henc⟩ := wireInstrOf_wf (descriptorOk_issuedFor (s := s) hok) s.host.devAddr
  rw [frameOf_eq_encodeFrame, decodeFrame_encodeFrame hwf henc] at h
  exact (Except.ok.inj h).symm

/-- The schedule is no part of what Xfer looks at. -/
theorem consumeEvent_frame (s : State) :
    (consumeEvent s).host = s.host ∧ (consumeEvent s).st = s.st ∧ (consumeEvent s).env.cfg = s.env.cfg
      ∧ (consumeEvent s).env.rst = s.env.rst := by
  unfold consumeEvent
  split <;> exact ⟨rfl, rfl, rfl, rfl⟩

theorem fetchedWire_congr {s t : State} (hhost : t.host = s.host) (hst : t.st = s.st) (hcfg : t.env.cfg = s.env.cfg)
    (d : Descriptor) : fetchedWire t d = fetchedWire s d := by
  have hneeds : needsSwitch t d = needsSwitch s d := by rw [needsSwitch, needsSwitch, hhost, hst]
  rw [fetchedWire, fetchedWire, issuedFor, issuedFor, hneeds, hhost, hcfg]

/-- Settles O60: a CMD write runs `commandWrite`, and the frame that Xfer issues decodes to the instruction that an IDLE
step fetches (`eq_fetchedWire_of_decodeFrame`), whose execution is Xfer (`exec_fetchedWire`). -/
theorem stepRunsTheInstruction : Obligations.StepRunsTheInstruction := by
  refine ⟨fun w i s hr hev hd => ?_, fun d i s hidle hcur hok hdec => ?_,
    fun d i txDone s hr hev hidle hcur hok hdec => ?_⟩
  · obtain ⟨-, -, -, hrst⟩ := consumeEvent_frame s
    calc step s
        = agentStep (.hostWrite 0x00C 4 w) (consumeEvent s) := by rw [step, hev]
      _ = commandWrite w (answered .ack (consumeEvent s)) := hostWrite_aligned (hrst.trans hr) (by decide) w
      _ = exec i (answered .ack (consumeEvent s)) := by rw [commandWrite, hd]
  · rw [← issuedFor_eq, ← frameOf_eq_frame] at hdec
    rw [eq_fetchedWire_of_decodeFrame hok hdec, exec_fetchedWire, xferOf_eq_transferred hidle hcur]
  · obtain ⟨hhost, hst, hcfg, hrst⟩ := consumeEvent_frame s
    have hcur' : currentDescriptor (consumeEvent s) = some d := by rw [currentDescriptor, hst]; exact hcur
    calc step s
        = engineStep txDone (consumeEvent s) := by rw [step, hev, agentStep_running (hrst.trans hr)]; rfl
      _ = stepIdle (consumeEvent s) := by rw [engineStep, hst, hidle]
      _ = exec (fetchedWire (consumeEvent s) d) (prepareXfer d (consumeEvent s)) := by rw [stepIdle, hcur']
      _ = exec i (prepareXfer d (consumeEvent s)) := by
        rw [fetchedWire_congr hhost hst hcfg, ← eq_fetchedWire_of_decodeFrame hok hdec]

/-! ### Booking, in the spec's terms (R115–R117, R121) -/

/-- The mode after a descriptor whose outcome the sequencer reacts to (R121, R122). -/
theorem offsetAfter_eq_spec {s : State} {d : Descriptor} (h : good s d ∨ failing s.st.outcome) :
    (if s.host.uart then s.st.offsetMode else offsetAfter s.env.cfg d s.st.outcome s.st.offsetMode)
      = Spec.offsetAfter d s := by
  simp only [Spec.offsetAfter, offsetAfter, uart_iff, cmd2Of_eq_offsetRegister_iff]
  split
  · rfl
  · split
    · next hop =>
      obtain ⟨hwrite, -⟩ := hop
      rcases h with (ho | ⟨-, hbcast⟩) | ho | ho
      · simp [ho, offsetAfterWrite]
      · cases hwrite.symm.trans hbcast
      · simp [ho, offsetAfterWrite]
      · simp [ho, offsetAfterWrite]
    · rfl

theorem failCountAfter_eq_spec (s : State) :
    failCountAfter s.st.seqOwner s.st.outcome s.st.failCount = Spec.failCountAfter s := by
  unfold failCountAfter Spec.failCountAfter
  cases s.st.outcome <;> simp [failing]

/-- Steps (1) and (2) of a transaction end, and R121. -/
theorem offsetPost_bookOutcome_toIdle {s : State} {d : Descriptor} (h : good s d ∨ failing s.st.outcome) :
    offsetPost d s.st.outcome (bookOutcome (toIdle s)) = booked d s := by
  have hmode := offsetAfter_eq_spec h
  have hfail := failCountAfter_eq_spec s
  unfold booked
  rw [← hmode, ← hfail]
  simp only [← satSucc_eq_sat]
  rfl

/-! ### The transaction end (R115, R122, R168) -/

theorem txEnd_of_reaction {s t : State} (h : sequencerReacts (bookOutcome (toIdle s)) = some t) :
    txEnd s = .next (healthCheck (tripsHealth s) t) :=
  (txEnd_next_iff s _).2 ⟨t, h, rfl⟩

/-- After a good outcome the sequencer goes on behind the booked descriptor. -/
theorem sequencerReacts_of_good {s : State} {d : Descriptor} (hcur : currentDescriptor s = some d) (h : good s d) :
    sequencerReacts (bookOutcome (toIdle s)) = continueSequence (advance (booked d s)) := by
  have hcur' : currentDescriptor (bookOutcome (toIdle s)) = some d := hcur
  rw [← offsetPost_bookOutcome_toIdle (.inl h), sequencerReacts, hcur']
  rcases h with ho | ⟨ho, -⟩ <;> simp [ho]

/-- After a failure the sequence ends with it. -/
theorem sequencerReacts_of_failing {s : State} {d : Descriptor} (hcur : currentDescriptor s = some d)
    (h : failing s.st.outcome) :
    sequencerReacts (bookOutcome (toIdle s)) = sequenceFail s.st.outcome (booked d s) := by
  have hcur' : currentDescriptor (bookOutcome (toIdle s)) = some d := hcur
  rw [← offsetPost_bookOutcome_toIdle (.inr h), sequencerReacts, hcur']
  rcases h with ho | ho <;> simp [ho]

theorem good_not_failed {s : State} {d : Descriptor} (h : good s d) : s.st.outcome.failed = false := by
  rcases h with ho | ⟨ho, -⟩ <;> simp [TxOutcome.failed, ho]

/-- Settles O44: the outcome is good, so the sequencer issues the next descriptor and the health check does nothing. -/
theorem nextDescriptorIsIssued : Obligations.NextDescriptorIsIssued := by
  intro d e s hcur hnext hgood
  have hnext' : currentDescriptor (advance (booked d s)) = some e := hnext
  have hreact : sequencerReacts (bookOutcome (toIdle s)) = some (transferred e (advance (booked d s))) := by
    rw [sequencerReacts_of_good hcur hgood, continueSequence, if_pos (seqStep_lt_of_current hnext'),
      xfer_of_current hnext', xferOf_eq_transferred rfl hnext']
  rw [txEnd_of_reaction hreact, tripsHealth_of_not_failed (good_not_failed hgood)]
  rfl

theorem errOf_eq_errorOf {o : TxOutcome} (h : failing o) : errOf o = BitVec.ofNat 4 (errorOf o) := by
  rcases h with rfl | rfl <;> rfl

theorem finish_eq_completed {s : State} (hb : s.busy = true) {code cause : BitVec 4} {m n : Nat}
    (hcode : code = BitVec.ofNat 4 m) (hcause : cause = BitVec.ofNat 4 n) (k : Nat) :
    finish code cause k s = completed m n k s := by
  rw [finish_of_busy hb, hcode, hcause]
  rfl

/-- fail(HOST, o) of the running bus command (R122, R126–R131). -/
theorem hostFail_eq_failedCommand {s : State} (hown : s.st.seqOwner = .host) (hfail : failing s.st.outcome)
    (hcmd : isBusWord s.st.cmd = true) : hostFail s.st.outcome s = some (failedCommand s s) := by
  have hb : s.busy = true := (busy_iff s).2 hown
  have hloadConfig : loadConfigFail s.st.outcome s = completed 3 (errorOf s.st.outcome) s.st.seqStep s :=
    finish_eq_completed hb rfl (errOf_eq_errorOf hfail) _
  have hplain : plainFail s.st.outcome s = completed (errorOf s.st.outcome) 0 s.st.seqStep s :=
    finish_eq_completed hb (errOf_eq_errorOf hfail) rfl _
  unfold isBusWord at hcmd
  unfold hostFail failedCommand
  cases hd : decodeCmd s.st.cmd with
  | error e => simp [hd] at hcmd
  | ok i =>
    rw [hd] at hcmd
    cases i with
    | loadConfig => simp [hloadConfig]
    | read | write | broadcast | cfgBlock | blockRead => simp [hplain]
    | _ => cases hcmd

/-- A failing transaction of a host command completes it with its own error, and then the health check is made. -/
theorem txEnd_of_failing {s : State} {d : Descriptor} (hown : s.st.seqOwner = .host)
    (hcur : currentDescriptor s = some d) (hfail : failing s.st.outcome) (hcmd : isBusWord s.st.cmd = true) :
    txEnd s = .next (healthCheck (tripsHealth s) (failedCommand s (booked d s))) := by
  have hown' : (booked d s).st.seqOwner = .host := hown
  apply txEnd_of_reaction
  rw [sequencerReacts_of_failing hcur hfail, sequenceFail, hown']
  exact hostFail_eq_failedCommand (s := booked d s) hown hfail hcmd

/-- A failing transaction of a host command is the third in a row exactly at FAIL_COUNT 2 (R117). -/
theorem tripsHealth_iff_of_failing {s : State} (hown : s.st.seqOwner = .host) (hfail : failing s.st.outcome) :
    tripsHealth s = true ↔ s.st.failCount = 2 := by
  rcases hfail with ho | ho <;> simp [tripsHealth, TxOutcome.failed, failCountAfter, Config.failThreshold, hown, ho]

/-- Settles O43: the command completes as after any failure (`txEnd_of_failing`), and the health check trips. -/
theorem thirdFailureStartsRecovery : Obligations.ThirdFailureStartsRecovery := by
  intro d s hown hcur hfail hcmd hcount
  rw [txEnd_of_failing hown hcur hfail hcmd, (tripsHealth_iff_of_failing hown hfail).2 hcount]
  rfl

end Sys2Proof.Machine
end
section
/-! PROOFS. The configuration sequence (O48, O49), entry by entry: what is written at each image address is a word of the
image, its own or the one that its address mirrors, because R7 keeps the mirror pairs within the calibration range and gives
an address at most one source. -/

namespace Sys2Proof.Machine

/-! ### The mirror pairs (R7, R132) -/

/-- R7's constraints on the mirror pairs: a source in the calibration range, and no destination twice. -/
theorem mirrorPairs_legal (c : Params) :
    (∀ p ∈ c.mirrorPairs, 0x25 ≤ p.1.toNat ∧ p.1.toNat ≤ 0x3A) ∧ (c.mirrorPairs.map Prod.snd).Nodup := by
  have hpairs : ParamValues.mirrorOk c.mirrorPairs = true := by
    have h := c.legal
    simp only [ParamValues.wf, Bool.and_eq_true] at h
    tauto
  simp only [ParamValues.mirrorOk, ParamValues.calAddr, Bool.and_eq_true, decide_eq_true_eq, List.all_eq_true] at hpairs
  obtain ⟨⟨hrange, -⟩, hnodup⟩ := hpairs
  exact ⟨fun p hp => (hrange p hp).1.1, hnodup⟩

theorem configAddr_of_lt {i : Nat} (h : i < 8) : configAddr i = BitVec.ofNat 8 i := if_pos h

theorem configAddr_of_ge {i : Nat} (h : 8 ≤ i) : configAddr i = BitVec.ofNat 8 (0x25 + (i - 8)) :=
  if_neg (Nat.not_lt.2 h)

/-- An address of the calibration range is itself as a byte. -/
theorem toNat_calAddr {i : Nat} (h : i < 30) : (BitVec.ofNat 8 (0x25 + (i - 8))).toNat = 0x25 + (i - 8) := by
  rw [BitVec.toNat_ofNat, Nat.mod_eq_of_lt (by omega)]

/-! ### The written values (R132) -/

theorem imageAt_eq (img : Vector Word 30) (i : Fin 30) : imageAt img i.val = img[i] := by
  simp [imageAt]

theorem configValue_of_lt (c : Params) (img : Vector Word 30) {i : Nat} (h : i < 8) : configValue c img i = imageAt img i :=
  if_pos h

/-- No pair mirrors to the address: the entry is its own. -/
theorem configValue_of_unmirrored {c : Params} {i : Nat} (h8 : 8 ≤ i) (h : ∀ p ∈ c.mirrorPairs, p.2 ≠ configAddr i)
    (img : Vector Word 30) : configValue c img i = imageAt img i := by
  have hfind : c.mirrorPairs.find? (fun p => decide (p.2 = configAddr i)) = none :=
    List.find?_eq_none.2 fun p hp => by simpa using h p hp
  rw [configValue, if_neg (Nat.not_lt.2 h8), hfind]

/-- The first pair that mirrors to an address is the only one. -/
theorem find?_mirrorPair {c : Params} {p : Byte × Byte} (hp : p ∈ c.mirrorPairs) :
    c.mirrorPairs.find? (fun q => decide (q.2 = p.2)) = some p := by
  obtain ⟨-, hnodup⟩ := mirrorPairs_legal c
  obtain ⟨q, hq⟩ := Option.isSome_iff_exists.1 (List.find?_isSome.2 ⟨p, hp, decide_eq_true rfl⟩ :
    (c.mirrorPairs.find? (fun q => decide (q.2 = p.2))).isSome = true)
  have hsame : q.2 = p.2 := by simpa using List.find?_some hq
  rw [hq, List.inj_on_of_nodup_map hnodup (List.mem_of_find?_eq_some hq) hp hsame]

/-- A pair mirrors to the address: the entry is the source's. -/
theorem configValue_of_mirrored {c : Params} {i : Nat} {src : Byte} (h8 : 8 ≤ i) (h : (src, configAddr i) ∈ c.mirrorPairs)
    (img : Vector Word 30) : configValue c img i = imageAt img (8 + (src.toNat - 0x25)) := by
  rw [configValue, if_neg (Nat.not_lt.2 h8), find?_mirrorPair h]

/-- Every written value is a word of the image. -/
theorem configValue_mem_image (c : Params) (img : Vector Word 30) {i : Nat} (h : i < 30) :
    ∃ k : Fin 30, configValue c img i = img[k] := by
  by_cases h8 : i < 8
  · exact ⟨⟨i, h⟩, (configValue_of_lt c img h8).trans (imageAt_eq img ⟨i, h⟩)⟩
  by_cases hm : ∀ p ∈ c.mirrorPairs, p.2 ≠ configAddr i
  · exact ⟨⟨i, h⟩, (configValue_of_unmirrored (Nat.not_lt.1 h8) hm img).trans (imageAt_eq img ⟨i, h⟩)⟩
  · push Not at hm
    obtain ⟨⟨src, dst⟩, hp, rfl : dst = configAddr i⟩ := hm
    obtain ⟨hrange, -⟩ := mirrorPairs_legal c
    have hsrc : 0x25 ≤ src.toNat ∧ src.toNat ≤ 0x3A := hrange _ hp
    have hk : 8 + (src.toNat - 0x25) < 30 := by omega
    exact ⟨⟨_, hk⟩, (configValue_of_mirrored (Nat.not_lt.1 h8) hp img).trans (imageAt_eq img ⟨_, hk⟩)⟩

/-! ### The list (R132) -/

section
variable (c : Params) (uart : Bool) (img : Vector Word 30)

theorem lcList_length : (lcList c uart img).length = 31 + (postWrites c uart).length := by
  simp only [lcList, List.length_append, List.length_map, List.length_range, List.length_singleton]

theorem lcList_take_image :
    (lcList c uart img).take 30
      = (List.range 30).map (fun i => ⟨.write, configAddr i, configValue c img i, .config⟩) := by
  rw [lcList, List.append_assoc, List.take_left' (by rw [List.length_map, List.length_range])]

theorem lcList_image {i : Nat} (h : i < 30) :
    (lcList c uart img)[i]? = some ⟨.write, configAddr i, configValue c img i, .config⟩ := by
  rw [← List.getElem?_take_of_lt h, lcList_take_image, List.getElem?_map, List.getElem?_range h, Option.map_some]

theorem lcList_cksum :
    (lcList c uart img)[30]? = some ⟨.write, c.opn.addrDspCfgCksum, configCksum c img, .config⟩ := by
  unfold lcList
  generalize configCksum c img = ck
  rw [List.append_assoc, List.getElem?_append_right (by simp)]
  simp

theorem lcList_post (j : Nat) :
    (lcList c uart img)[31 + j]? = (postWrites c uart)[j]?.map (fun p => ⟨.write, p.1, p.2, .config⟩) := by
  unfold lcList
  generalize configCksum c img = ck
  rw [List.getElem?_append_right (by simp)]
  simp

end

/-- Settles O49: each entry is read off the list, and the image's words by the mirror pairs. -/
theorem configListOrder : Obligations.ConfigListOrder := by
  intro c uart img post
  have hpost : postWrites c uart = post := rfl
  have hlen := lcList_length c uart img
  have hpost8 := postWrites_length c uart
  refine ⟨hlen, by omega, fun i h8 => ?_, fun i h8 hown => ?_, fun i k h8 hk8 hpair => ?_, lcList_cksum c uart img,
    fun j p hp => ?_, fun hu => ?_⟩
  · rw [lcList_image c uart img i.isLt, configAddr_of_lt h8, configValue_of_lt c img h8, imageAt_eq]
  · have hne : ∀ p ∈ c.mirrorPairs, p.2 ≠ configAddr i := fun p hp heq => hown p hp (by
      rw [heq, configAddr_of_ge h8, toNat_calAddr i.isLt])
    rw [lcList_image c uart img i.isLt, configValue_of_unmirrored h8 hne, configAddr_of_ge h8, imageAt_eq]
  · rw [← configAddr_of_ge h8] at hpair
    have hsource : 8 + ((BitVec.ofNat 8 (0x25 + (k.val - 8))).toNat - 0x25) = k.val := by
      rw [toNat_calAddr k.isLt]
      omega
    rw [lcList_image c uart img i.isLt, configValue_of_mirrored h8 hpair, hsource, configAddr_of_ge h8, imageAt_eq]
  · rw [lcList_post, hpost, hp, Option.map_some]
  · exact (runnable_lcList c uart img).addrs hu

/-! ### The checksum (R133) -/

theorem toNat_image_values (c : Params) (uart : Bool) (img : Vector Word 30) :
    ((lcList c uart img).take 30).map (fun d => d.v.toNat) = (configValues c img).map BitVec.toNat := by
  rw [lcList_take_image, configValues, List.map_map, List.map_map]
  rfl

/-- An image that repeats one word has that word written everywhere, whatever the mirror pairs. -/
theorem configValues_replicate (c : Params) (v : Word) : configValues c (Vector.replicate 30 v) = List.replicate 30 v := by
  rw [configValues, List.eq_replicate_iff]
  refine ⟨by simp, fun w hw => ?_⟩
  obtain ⟨i, hi, rfl⟩ := List.mem_map.1 hw
  obtain ⟨k, hk⟩ := configValue_mem_image c (Vector.replicate 30 v) (List.mem_range.1 hi)
  rw [hk, Fin.getElem_fin, Vector.getElem_replicate]

/-- Settles O48: the checksum is 0xFFFFFFFF less the sum modulo 2^32, and an edge image is written as it is. -/
theorem configChecksumCompletesTheSum : Obligations.ConfigChecksumCompletesTheSum := by
  refine ⟨fun c uart img => ?_, fun c => ⟨?_, ?_⟩⟩
  · rw [toNat_image_values, configCksum_toNat, wordSum_toNat]
    generalize ((configValues c img).map BitVec.toNat).sum = total
    omega
  · rw [configCksum, configValues_replicate]
    decide
  · rw [configCksum, configValues_replicate]
    decide

end Sys2Proof.Machine
end
section
/-! PROOFS. How a bus command starts (O23–O28) and how it ends (O41, O42). A command that R124 lets pass runs in the state
`admitted`, where it starts a list at step 0 with the engine IDLE, so the first descriptor is transferred at once
(`startSeq_eq_transferred`). The end is the transaction end of the last descriptor or of the failing one. -/

namespace Sys2Proof.Machine

open Sys2Proof.Spec (word ready accepted rejected transferred launched blockFrame mustSwitch dropsHandle sysBlk
  issued frame responseLength good booked withResults completed)

/-! ### Command words as sums of fields (R80, R85) -/

theorem cmdWord_eq_word (op nm1 : BitVec 4) (arg8 : Byte) (dir : Bool) :
    cmdWord op nm1 arg8 dir = word op.toNat nm1.toNat arg8.toNat dir := by
  apply BitVec.eq_of_toNat_eq
  rw [toNat_cmdWord, word, BitVec.toNat_ofNat]
  cases dir <;> simp <;> omega

/-- NM1 of a count in range is the count less one. -/
theorem cmdWord_count_eq_word {n : Nat} (hn : countOk n = true) (op : BitVec 4) (arg8 : Byte) :
    cmdWord op (nm1Of n) arg8 false = word op.toNat (n - 1) arg8.toNat false := by
  obtain ⟨-, h16⟩ := (countOk_iff n).1 hn
  rw [cmdWord_eq_word, nm1Of, BitVec.toNat_ofNat, Nat.mod_eq_of_lt (by omega)]

/-! ### The six bus commands (R126–R131) -/

theorem exec_read (n : Nat) (a : Byte) (s : State) :
    exec (.read n a) s = .next (busCommand (cmdWord 1 (nm1Of n) a false) (readRangeOk s.host n a) (runRead n a) s) := rfl

theorem exec_write (a : Byte) (s : State) :
    exec (.write a) s = .next (busCommand (cmdWord 2 0 a false) (writeRangeOk s.host a) (runWrite a) s) := rfl

theorem exec_broadcast (a : Byte) (s : State) :
    exec (.broadcast a) s = .next (busCommand (cmdWord 3 0 a false) (bcastRangeOk a) (runBroadcast a) s) := rfl

theorem exec_cfgBlock (n : Nat) (s : State) :
    exec (.cfgBlock n) s = .next (busCommand (cmdWord 4 (nm1Of n) 0 false) true runCfgBlock s) := rfl

theorem exec_blockRead (n : Nat) (s : State) :
    exec (.blockRead n) s
      = .next (busCommand (cmdWord 5 (nm1Of n) 0 false) (handleOk s.st n) (runBlockRead n) s) := rfl

theorem exec_loadConfig (s : State) :
    exec .loadConfig s = .next (busCommand (cmdWord 6 0 0 false) true runLoadConfig s) := rfl

/-! ### The checks of R124 -/

theorem readRangeOk_iff (h : HostRegs) (n : Nat) (a : Byte) :
    readRangeOk h n a = true ↔
      if h.wireMode = .uart then a.toNat + n - 1 ≤ 0x7F
      else a.toNat + n - 1 ≤ 0xFE ∧ (0x80 ≤ a.toNat ∨ a.toNat + n - 1 ≤ 0x7F) := by
  by_cases hw : h.wireMode = .uart <;> simp [readRangeOk, HostRegs.uart, hw]

theorem writeRangeOk_iff (h : HostRegs) (a : Byte) :
    writeRangeOk h a = true ↔ if h.wireMode = .uart then a.toNat ≤ 0x7F else a ≠ 0xFF := by
  by_cases hw : h.wireMode = .uart <;> simp [writeRangeOk, HostRegs.uart, hw]

theorem bcastRangeOk_iff (a : Byte) : bcastRangeOk a = true ↔ a.toNat ≤ 0x7F := by
  simp [bcastRangeOk]

theorem handleOk_iff (st : Hidden) (n : Nat) : handleOk st n = true ↔ st.blkValid = true ∧ st.blkCount = n := by
  simp [handleOk]

/-! ### Acceptance (R164) -/

/-- The state in which an accepted bus command starts to run: the word is latched, and STATUS.LOCK is set. -/
def admitted (w : Word) (s : State) : State :=
  { latchCommand w s with rpe := { (latchCommand w s).rpe with lock := true } }

/-- Where no command runs, the RPE is Healthy and BAUD is not 0, R124's precondition alone decides. -/
theorem busCommand_of_healthy {s : State} (hown : s.st.seqOwner ≠ .host) (hres : s.rpe.resetting = false)
    (hbaud : s.host.baud ≠ 0) (w : Word) (p : Bool) (run : State → State) :
    busCommand w p run s = if p then run (admitted w s) else rejected 4 w s := by
  have hb : s.busy = false := (not_busy_iff s).2 hown
  rcases busCommand_cases w p run s with ⟨hb', -⟩ | ⟨-, hres', -⟩ | ⟨-, -, hbaud', -⟩ | ⟨-, -, -, hp, he⟩
    | ⟨-, -, -, hp, he⟩
  · cases hb.symm.trans hb'
  · cases hres.symm.trans hres'
  · exact absurd hbaud' hbaud
  · have hlatched : (latchCommand w s).busy = false := hb
    rw [he, hp, finish_of_not_busy hlatched]
    rfl
  · rw [he, hp]
    rfl

/-- Settles O23: each address or handle that the statement names is one that the command's check refuses. -/
theorem rangeViolationsAreRejected : Obligations.RangeViolationsAreRejected := by
  intro n a s h1 h16 hown hres hbaud
  have hn : countOk n = true := (countOk_iff n).2 ⟨h1, h16⟩
  have hrejected : ∀ (w : Word) {p : Bool} (run : State → State), ¬ p = true → busCommand w p run s = rejected 4 w s :=
    fun w p run hp => by rw [busCommand_of_healthy hown hres hbaud, if_neg hp]
  refine ⟨fun hr => ?_, fun hr => ?_, fun hr => ?_, fun hr => ?_⟩
  · have hbad : ¬ readRangeOk s.host n a = true := by
      rw [readRangeOk_iff]
      by_cases hw : s.host.wireMode = .uart
      · rw [if_pos hw] at hr ⊢
        omega
      · rw [if_neg hw] at hr ⊢
        omega
    rw [exec_read, hrejected _ _ hbad, cmdWord_count_eq_word hn]
    rfl
  · have hbad : ¬ writeRangeOk s.host a = true := by
      rw [writeRangeOk_iff]
      by_cases hw : s.host.wireMode = .uart
      · rw [if_pos hw] at hr ⊢
        omega
      · rw [if_neg hw] at hr ⊢
        exact not_not.2 hr
    rw [exec_write, hrejected _ _ hbad, cmdWord_eq_word]
    rfl
  · have hbad : ¬ bcastRangeOk a = true := by
      rw [bcastRangeOk_iff]
      omega
    rw [exec_broadcast, hrejected _ _ hbad, cmdWord_eq_word]
    rfl
  · have hbad : ¬ handleOk s.st n = true := by
      rw [handleOk_iff]
      rintro ⟨hvalid, hcount⟩
      rcases hr with hinvalid | hother
      · cases hvalid.symm.trans hinvalid
      · exact hother hcount
    rw [exec_blockRead, hrejected _ _ hbad, cmdWord_count_eq_word hn]
    rfl

/-! ### The start of a sequence (R119, R120, R122) -/

/-- start_seq with the engine IDLE transfers the first descriptor in the same step. -/
theorem startSeq_eq_transferred {s : State} (hidle : s.st.engState = .idle) (owner : Owner) (d : Descriptor)
    (ds : List Descriptor) :
    startSeq owner (d :: ds) s
      = transferred d { s with st := { s.st with seqOwner := owner, seqList := d :: ds, seqStep := 0 } } := by
  rw [startSeq_cons]
  exact xferOf_eq_transferred hidle rfl

/-- A ready command that passes R124 starts its list at once, behind its own first effects, which lead from `s` to `u`. -/
theorem busCommand_starts {s u : State} (h : ready s) {w : Word} {p : Bool} {run : State → State} {d : Descriptor}
    {ds : List Descriptor} (hp : p = true) (hidle : u.st.engState = s.st.engState)
    (hrun : run (admitted w s) = startSeq .host (d :: ds) (admitted w u)) :
    busCommand w p run s = transferred d (accepted w (d :: ds) u) := by
  obtain ⟨hown, hres, hbaud, hs⟩ := h
  have hidle' : (admitted w u).st.engState = .idle := hidle.trans hs
  rw [busCommand_of_healthy hown hres hbaud, if_pos hp, hrun, startSeq_eq_transferred hidle']
  rfl

/-- Settles O24: the range check passes, and READ's one descriptor is transferred (`busCommand_starts`). -/
theorem readStartsItsTransaction : Obligations.ReadStartsItsTransaction := by
  intro n a s h1 h16 hready hrange
  have hn : countOk n = true := (countOk_iff n).2 ⟨h1, h16⟩
  have hp : readRangeOk s.host n a = true := (readRangeOk_iff _ _ _).2 hrange
  rw [exec_read, cmdWord_count_eq_word hn]
  exact congrArg Host.Outcome.next (busCommand_starts hready hp rfl rfl)

/-- Settles O25: both range checks as in O24, with the DATA that the acceptance leaves as it was. -/
theorem writeAndBroadcastStartTheirTransactions : Obligations.WriteAndBroadcastStartTheirTransactions := by
  refine fun a s hready => ⟨fun hrange => ?_, fun hrange => ?_⟩
  · have hp : writeRangeOk s.host a = true := (writeRangeOk_iff _ _).2 hrange
    rw [exec_write, cmdWord_eq_word]
    exact congrArg Host.Outcome.next (busCommand_starts hready hp rfl rfl)
  · have hp : bcastRangeOk a = true := (bcastRangeOk_iff a).2 hrange
    rw [exec_broadcast, cmdWord_eq_word]
    exact congrArg Host.Outcome.next (busCommand_starts hready hp rfl rfl)

theorem toList_of_four {α : Type} (v : Vector α 4) :
    v.toList = [v[(0 : Fin 4)], v[(1 : Fin 4)], v[(2 : Fin 4)], v[(3 : Fin 4)]] := by
  apply List.ext_getElem (by simp)
  intro i hi _
  have hi4 : i < 4 := by simpa using hi
  interval_cases i <;> simp

/-- Write j of CFG_BLOCK (R129). -/
def cfgBlockWrite (s : State) (j : Fin 4) : Descriptor := ⟨.write, (sysBlk s)[j], s.host.blkList[j], .blkcfg⟩

theorem sysBlkAddrs_eq_sysBlk (s : State) : sysBlkAddrs s.env.cfg s.host.uart = sysBlk s := by
  simp only [sysBlkAddrs, sysBlk, uart_iff]

/-- The list of CFG_BLOCK, entry by entry (R129). -/
theorem cfgBlockList_eq (s : State) :
    cfgBlockList s.env.cfg s.host.uart s.host.blkList
      = [cfgBlockWrite s 0, cfgBlockWrite s 1, cfgBlockWrite s 2, cfgBlockWrite s 3] := by
  rw [cfgBlockList, sysBlkAddrs_eq_sysBlk, toList_of_four s.host.blkList, toList_of_four (sysBlk s)]
  rfl

/-- Settles O26: the list is the four writes (`cfgBlockList_eq`), started behind the cleared handle; in UART R7 keeps
their addresses within seven bits. -/
theorem cfgBlockStartsItsWrites : Obligations.CfgBlockStartsItsWrites := by
  intro n s h1 h16 hready
  have hn : countOk n = true := (countOk_iff n).2 ⟨h1, h16⟩
  refine ⟨?_, fun hw j => ?_⟩
  · rw [exec_cfgBlock, cmdWord_count_eq_word hn]
    exact congrArg Host.Outcome.next (busCommand_starts hready rfl (u := clearHandle s) rfl
      (congrArg (startSeq .host · (admitted _ (clearHandle s))) (cfgBlockList_eq s)))
  · have huart := sysBlkAddrs_uart s.env.cfg
    rw [← (uart_iff s.host).2 hw, sysBlkAddrs_eq_sysBlk] at huart
    exact huart _ (by simp)

/-- A block read needs no switch and drops no handle: it is Execute alone (R120, R125, R130). -/
theorem transferred_block (s : State) {n : Nat} (hn : countOk n = true) :
    transferred ⟨.block, 0, BitVec.ofNat 32 n, .cmd⟩ s
      = launched (blockFrame s.host.uart s.host.devAddr n) (4 * n + 1) s := by
  obtain ⟨-, h16⟩ := (countOk_iff n).1 hn
  have hcount : (BitVec.ofNat 32 n).toNat = n := by rw [BitVec.toNat_ofNat, Nat.mod_eq_of_lt (by omega)]
  have hswitch : ¬ mustSwitch s ⟨.block, 0, BitVec.ofNat 32 n, .cmd⟩ := by simp [mustSwitch]
  have hdrops : ¬ dropsHandle s ⟨.block, 0, BitVec.ofNat 32 n, .cmd⟩ := by simp [dropsHandle]
  rw [transferred, if_neg hswitch, issued, if_neg hdrops, if_neg hdrops]
  simp only [frame, responseLength, hcount]

/-- Settles O27: the handle matches, and the one block descriptor is Execute alone (`transferred_block`). -/
theorem blockReadStartsItsTransaction : Obligations.BlockReadStartsItsTransaction := by
  intro n s h1 h16 hready hvalid hcount
  have hn : countOk n = true := (countOk_iff n).2 ⟨h1, h16⟩
  have hp : handleOk s.st n = true := (handleOk_iff _ _).2 ⟨hvalid, hcount⟩
  rw [exec_blockRead, cmdWord_count_eq_word hn]
  exact congrArg Host.Outcome.next ((busCommand_starts hready hp rfl rfl).trans (transferred_block _ hn))

/-- `lc_list()` starts with CFG_IMAGE[0] to address 0x00 (R132). -/
theorem lcList_eq_cons (c : Params) (uart : Bool) (img : Vector Word 30) :
    lcList c uart img = ⟨.write, 0x00, img[0], .config⟩ :: (lcList c uart img).tail := by
  have hfirst : configValue c img 0 = img[0] := (configValue_of_lt c img (by omega)).trans (imageAt_eq img 0)
  have hhead : (lcList c uart img).head? = some ⟨.write, 0x00, img[0], .config⟩ := by
    rw [List.head?_eq_getElem?, lcList_image c uart img (by omega), hfirst]
    rfl
  exact List.eq_cons_of_mem_head? hhead

theorem latchCksum_admitted (ck w : Word) (s : State) : latchCksum ck (admitted w s) = admitted w (latchCksum ck s) := rfl

/-- LOAD_CONFIG's sequence behind its first effect (R33, R131). -/
theorem runLoadConfig_admitted (w : Word) (s : State) :
    runLoadConfig (admitted w s)
      = startSeq .host (lcList s.env.cfg s.host.uart s.host.cfgImage)
          (admitted w (latchCksum (configCksum s.env.cfg s.host.cfgImage) s)) := by
  rw [← latchCksum_admitted]
  rfl

/-- Settles O28: LAST_CKSUM is latched, and the list starts with the image's first word (`lcList_eq_cons`). -/
theorem loadConfigStartsItsWrites : Obligations.LoadConfigStartsItsWrites := by
  intro s hready
  have hlist := lcList_eq_cons s.env.cfg s.host.uart s.host.cfgImage
  have hrun := fun w => runLoadConfig_admitted w s
  rw [exec_loadConfig, cmdWord_eq_word]
  generalize configCksum s.env.cfg s.host.cfgImage = ck at hrun ⊢
  generalize lcList s.env.cfg s.host.uart s.host.cfgImage = l at hlist hrun ⊢
  rw [hlist] at hrun ⊢
  exact congrArg Host.Outcome.next (busCommand_starts hready rfl rfl (hrun _))

/-! ### The end of a command (R122, R126–R131, R167) -/

/-- With no descriptor left, a good transaction end completes the host's command with OK, in the state `t` that its success
clause has made ready. -/
theorem txEnd_of_success {s t : State} {d : Descriptor} (hown : s.st.seqOwner = .host)
    (hcur : currentDescriptor s = some d) (hlast : s.st.seqStep + 1 = s.st.seqList.length) (hgood : good s d)
    (ht : t.st.seqOwner = s.st.seqOwner) (h : hostSuccess (advance (booked d s)) = some (finish codeOk 0 0 t)) :
    txEnd s = .next (completed 0 0 0 t) := by
  have hdone : ¬ (advance (booked d s)).st.seqStep < (advance (booked d s)).st.seqList.length := hlast.not_lt
  have hown' : (advance (booked d s)).st.seqOwner = .host := hown
  have hfinish : finish codeOk 0 0 t = completed 0 0 0 t :=
    finish_eq_completed ((busy_iff t).2 (ht.trans hown)) rfl rfl 0
  have hreact : sequencerReacts (bookOutcome (toIdle s)) = some (completed 0 0 0 t) := by
    rw [sequencerReacts_of_good hcur hgood, continueSequence, if_neg hdone, sequenceSuccess, hown', ← hfinish]
    exact h
  rw [txEnd_of_reaction hreact, tripsHealth_of_not_failed (good_not_failed hgood)]
  rfl

/-- With all words there, no result keeps its old value (R34). -/
theorem writeResults_eq_withResults {n : Nat} {s : State} (h : n ≤ s.st.respWords.length) :
    writeResults n s = withResults n s := by
  have hcell : ∀ i : Fin 16,
      (if i.val < n then (s.st.respWords[i.val]?).getD s.rpe.result[i] else s.rpe.result[i])
        = if i.val < n then s.st.respWords.getD i.val 0 else s.rpe.result[i] := fun i => by
    by_cases hi : i.val < n
    · rw [if_pos hi, if_pos hi, List.getD_eq_getElem?_getD, List.getElem?_eq_getElem (hi.trans_le h)]
      rfl
    · rw [if_neg hi, if_neg hi]
  simp only [writeResults, withResults, hcell]

/-- Settles O41: the transaction end runs the success clause of the command that `st.cmd` decodes to (`txEnd_of_success`);
the completion clears `st.seq_step`, so it does not matter that the clause runs behind the last step. -/
theorem lastTransactionCompletesItsCommand : Obligations.LastTransactionCompletesItsCommand := by
  intro d i s hown hcur hlast hgood hcmd
  have hcmd' : decodeCmd (advance (booked d s)).st.cmd = .ok i := hcmd
  refine ⟨fun n hi hn => ?_, fun hi => ?_, fun n hi => ?_⟩
  · have hresults : writeResults n (advance (booked d s)) = withResults n (advance (booked d s)) :=
      writeResults_eq_withResults hn
    refine txEnd_of_success (t := withResults n (advance (booked d s))) hown hcur hlast hgood rfl ?_
    rw [hostSuccess, hcmd', ← hresults]
    rcases hi with rfl | ⟨a, rfl⟩ <;> rfl
  · refine txEnd_of_success (t := advance (booked d s)) hown hcur hlast hgood rfl ?_
    rw [hostSuccess, hcmd']
    rcases hi with rfl | ⟨a, rfl | rfl⟩ <;> rfl
  · refine txEnd_of_success (t := setHandle n (advance (booked d s))) hown hcur hlast hgood rfl ?_
    rw [hostSuccess, hcmd', hi]
    rfl

/-- Settles O42: the command completes as after any failure (`txEnd_of_failing`), and the health check does not trip. -/
theorem failedTransactionEndsItsCommand : Obligations.FailedTransactionEndsItsCommand := by
  intro d s hown hcur hfail hcmd hcount
  have htrips : tripsHealth s = false := Bool.eq_false_iff.2 (mt (tripsHealth_iff_of_failing hown hfail).1 hcount)
  rw [txEnd_of_failing hown hcur hfail hcmd, htrips]
  rfl

end Sys2Proof.Machine
end
section
/-! PROOFS. The calibration pipeline (O30–O34). The BCD recursion is read once, digit by digit: that gives both the nibbles
(O34) and the sum over digits in which the statements about results are written. A pipeline command that is not dropped then
is one state, `calculated`, of its own output and flags. -/

namespace Sys2Proof.Machine

open Sys2Proof.Spec (word calculated bcd ratio creeps signBit signedKind unsignedKind)

/-! ### The BCD digits (R135) -/

/-- Nibble i of the BCD sum is decimal digit i. -/
theorem bcdDigits_nibble {k i : Nat} (hi : i < k) (n : Nat) : bcdDigits k n / 16 ^ i % 16 = n / 10 ^ i % 10 := by
  induction k generalizing n i with
  | zero => omega
  | succ k ih =>
    rw [bcdDigits]
    cases i with
    | zero =>
      rw [pow_zero, pow_zero, Nat.div_one, Nat.div_one]
      omega
    | succ i =>
      have hdrop : (n % 10 + 16 * bcdDigits k (n / 10)) / 16 = bcdDigits k (n / 10) := by omega
      rw [pow_succ', pow_succ', ← Nat.div_div_eq_div_mul, ← Nat.div_div_eq_div_mul, hdrop]
      exact ih (Nat.lt_of_succ_lt_succ hi) _

/-- The BCD sum of k digits is at most k nines, (3/5)·(16^k − 1). -/
theorem bcdDigits_le (k n : Nat) : 5 * bcdDigits k n + 3 ≤ 3 * 16 ^ k := by
  induction k generalizing n with
  | zero => rfl
  | succ k ih =>
    have hrest := ih (n / 10)
    rw [bcdDigits, pow_succ']
    omega

/-- Only the k low digits count. -/
theorem bcdDigits_mod (k n : Nat) : bcdDigits k (n % 10 ^ k) = bcdDigits k n := by
  induction k generalizing n with
  | zero => rfl
  | succ k ih =>
    have hlow : n % 10 ^ (k + 1) % 10 = n % 10 := Nat.mod_mod_of_dvd n (dvd_pow_self 10 k.succ_ne_zero)
    have hrest : n % 10 ^ (k + 1) / 10 = n / 10 % 10 ^ k := by rw [pow_succ', Nat.mod_mul_right_div_self]
    rw [bcdDigits, bcdDigits, hlow, hrest, ih]

theorem bcdDigits_inj {k m n : Nat} (hm : m < 10 ^ k) (hn : n < 10 ^ k) (h : bcdDigits k m = bcdDigits k n) : m = n := by
  induction k generalizing m n with
  | zero => omega
  | succ k ih =>
    rw [pow_succ'] at hm hn
    rw [bcdDigits, bcdDigits] at h
    have hrest : m / 10 = n / 10 := ih (by omega) (by omega) (by omega)
    omega

/-- The recursion over the digits is the sum over the digits. -/
theorem bcdDigits_eq_sum (k n : Nat) :
    bcdDigits k n = ((List.range k).map (fun i => n / 10 ^ i % 10 * 16 ^ i)).sum := by
  induction k generalizing n with
  | zero => rfl
  | succ k ih =>
    have hterm : ∀ i, n / 10 ^ (i + 1) % 10 * 16 ^ (i + 1) = 16 * (n / 10 / 10 ^ i % 10 * 16 ^ i) := fun i => by
      rw [pow_succ', pow_succ', ← Nat.div_div_eq_div_mul, Nat.mul_left_comm]
    simp [List.range_succ_eq_map, Function.comp_def, bcdDigits, ih, hterm, List.sum_map_mul_left]

/-- Eight BCD digits fit in the word. -/
theorem toNat_bcd8 (n : Nat) : (bcd8 n).toNat = bcdDigits 8 (n % 10 ^ 8) := by
  have hle := bcdDigits_le 8 (n % 10 ^ 8)
  rw [bcd8, BitVec.toNat_ofNat, Nat.mod_eq_of_lt (by omega)]

/-- Settles O34: `BCD8` is the digit recursion without loss (`toNat_bcd8`), which puts digit i in nibble i
(`bcdDigits_nibble`), is bounded by eight nines and determines the digits. -/
theorem bcdNibblesAreDigits : Obligations.BcdNibblesAreDigits := by
  intro n
  refine ⟨fun i hi => ?_, ?_, ?_, fun m hm hn h => ?_⟩
  · have hnibble := bcdDigits_nibble hi (n % 10 ^ 8)
    rw [BitVec.extractLsb'_toNat, Nat.shiftRight_eq_div_pow, toNat_bcd8, pow_mul]
    exact hnibble
  · have hle := bcdDigits_le 8 (n % 10 ^ 8)
    rw [toNat_bcd8]
    omega
  · rw [bcd8, bcd8, Nat.mod_mod]
  · have hdigits := congrArg BitVec.toNat h
    rw [toNat_bcd8, toNat_bcd8, bcdDigits_mod, bcdDigits_mod] at hdigits
    exact bcdDigits_inj hm hn hdigits

/-! ### The pipeline's arithmetic in the spec's terms (R135, R139–R148) -/

theorem bcd8_eq_bcd (n : Nat) : bcd8 n = bcd n := by
  rw [bcd8, bcdDigits_mod, bcdDigits_eq_sum, bcd]

theorem scaled_eq_ratio (s : State) (x factor : Nat) : scaled s.env.cfg.calFracBits x factor = ratio s x factor := rfl

/-- The magnitude is the absolute value of the two's complement number (R141). -/
theorem magnitude_eq_natAbs (raw : Word) : magnitude raw = raw.toInt.natAbs := by
  have hlt := raw.isLt
  rw [magnitude, BitVec.toInt_eq_msb_cond, BitVec.msb_eq_getLsbD_last]
  cases raw.getLsbD 31
  · rfl
  · show 2 ^ 32 - raw.toNat = ((raw.toNat : Int) - (2 ^ 32 : Nat)).natAbs
    omega

/-- CMD.DIR of a CALRMS word is the instruction's own DIR (R142). -/
theorem signOf_cmdWord (s : State) (op nm1 : BitVec 4) (arg8 : Byte) (dir : Bool) :
    signOf s.host s.host.data (cmdWord op nm1 arg8 dir) = signBit s dir := by
  obtain ⟨-, -, -, -, hdir⟩ := cmdWord_fields op nm1 arg8 dir
  rw [signOf, ← cmdDir, hdir, signBit, BitVec.msb_eq_getLsbD_last]
  rfl

theorem withSign_eq_or (sign : Bool) (w : Word) : withSign sign w = w ||| (if sign then 0x00800000 else 0) := by
  cases sign
  · exact (BitVec.or_zero).symm
  · rfl

theorem creepOf_eq_creeps (s : State) (mag factor : Nat) :
    creepOf s.env.cfg.calFracBits s.host mag factor = creeps s mag factor := by
  rw [creepOf, creeps, Bool.decide_or]
  rfl

/-- HZ's quotient, with the zero sample apart (R148). -/
theorem frequency_eq (h : HostRegs) (raw : Word) :
    frequency h raw
      = if raw = 0 then 0 else 100 * h.freqConst.toNat * (if h.calcfg.getLsbD 3 then 64 else 16) / raw.toNat := by
  have hzero : raw.toNat = 0 ↔ raw = 0 := BitVec.toNat_inj (y := 0)
  rw [frequency, div0]
  by_cases hraw : raw = 0
  · rw [if_pos hraw, if_pos (hzero.2 hraw)]
  · rw [if_neg hraw, if_neg (mt hzero.1 hraw)]
    rfl

/-! ### The pipeline commands (R137, R149, R150, R160) -/

/-- Where no host command runs, a pipeline command writes its output and flags and completes in the same step. -/
theorem calResult_latchCommand {s : State} (hown : s.st.seqOwner ≠ .host) (out : Word) (flags : CalFlags) (w : Word) :
    calResult out flags (latchCommand w s) = calculated out flags w s := by
  rw [calResult, finish_of_not_busy]
  · rfl
  · exact (not_busy_iff s).2 hown

theorem pipelineCommand_of_not_busy {s : State} (hown : s.st.seqOwner ≠ .host) (w : Word) (run : State → State) :
    pipelineCommand w run s = run (latchCommand w s) := by
  rw [pipelineCommand, (not_busy_iff s).2 hown]
  rfl

theorem next_pipelineCommand {s : State} (hown : s.st.seqOwner ≠ .host) {w : Word} {run : State → State} {t : State}
    (h : run (latchCommand w s) = t) :
    (.next (pipelineCommand w run s) : Host.Outcome State Fault Refusal) = .next t := by
  rw [pipelineCommand_of_not_busy hown, h]

/-- `calrms_signed` at acceptance, of any word that carries DIR (R149). -/
theorem calSigned_latchCommand {s : State} (hown : s.st.seqOwner ≠ .host) (op nm1 : BitVec 4) (arg8 : Byte) (dir : Bool)
    (power : Bool) (factor : Nat) :
    calSigned power factor (latchCommand (cmdWord op nm1 arg8 dir) s)
      = signedKind (word op.toNat nm1.toNat arg8.toNat dir) power factor dir s := by
  rw [← cmdWord_eq_word]
  simp only [calSigned, latchCommand_host, latchCommand_env, latchCommand_st_cmd, calResult_latchCommand hown,
    signOf_cmdWord, withSign_eq_or, bcd8_eq_bcd, scaled_eq_ratio, creepOf_eq_creeps, magnitude_eq_natAbs, overflows,
    signedKind]

/-- `calrms_unsigned` at acceptance (R150). -/
theorem calUnsigned_latchCommand {s : State} (hown : s.st.seqOwner ≠ .host) (op nm1 : BitVec 4) (arg8 : Byte) (dir : Bool)
    (creep : Bool) (factor : Nat) :
    calUnsigned creep factor (latchCommand (cmdWord op nm1 arg8 dir) s)
      = unsignedKind (word op.toNat nm1.toNat arg8.toNat dir) creep factor s := by
  rw [← cmdWord_eq_word]
  simp only [calUnsigned, latchCommand_host, latchCommand_env, calResult_latchCommand hown, bcd8_eq_bcd, scaled_eq_ratio,
    overflows]
  rfl

theorem exec_hex2bcd (s : State) : exec .hex2bcd s = .next (pipelineCommand (cmdWord 7 0 0 false) runHex2bcd s) := rfl

theorem exec_calrmsHz (dir : Bool) (s : State) :
    exec (.calrmsHz dir) s = .next (pipelineCommand (cmdWord 8 0 9 dir) runHz s) := rfl

/-- Settles O30: HEX2BCD is `calResult` of DATA's BCD, at acceptance (`calResult_latchCommand`). -/
theorem hex2bcdResult : Obligations.Hex2bcdResult := by
  intro s hown
  rw [exec_hex2bcd, pipelineCommand_of_not_busy hown, runHex2bcd, calResult_latchCommand hown, latchCommand_host,
    bcd8_eq_bcd, cmdWord_eq_word]
  rfl

/-- Settles O31: the six kinds differ only in their code, in the factor and in the creep test (`calSigned_latchCommand`);
P and PB then keep the flag. -/
theorem signedKindsResult : Obligations.SignedKindsResult := by
  intro dir s hown
  have hkind := fun kind => calSigned_latchCommand hown 8 0 kind dir
  have hrun := @next_pipelineCommand s hown
  exact ⟨hrun (congrArg keepCreepA (hkind 0 true s.host.pg.toNat)), hrun (hkind 1 true s.host.pg.toNat),
    hrun (congrArg keepCreepB (hkind 2 true s.host.pgB)), hrun (hkind 3 true s.host.pgB),
    hrun (hkind 4 false s.host.sRatio.toNat), hrun (hkind 5 false s.host.sRatio.toNat)⟩

/-- Settles O32: U cannot be suppressed; I1 and I2 take the flag that P and PB kept (`calUnsigned_latchCommand`). -/
theorem unsignedKindsResult : Obligations.UnsignedKindsResult := by
  intro dir s hown
  have hkind := fun kind => calUnsigned_latchCommand hown 8 0 kind dir
  have hrun := @next_pipelineCommand s hown
  exact ⟨hrun (hkind 6 false s.host.urmg.toNat), hrun (hkind 7 s.st.creepA s.host.i1rmg.toNat),
    hrun (hkind 8 s.st.creepB s.host.i2rmg.toNat)⟩

/-- Settles O33: HZ is `calResult` of its quotient's BCD, at acceptance, where `frequency_eq` sets the zero sample apart. -/
theorem frequencyResult : Obligations.FrequencyResult := by
  intro dir s hown
  rw [exec_calrmsHz, pipelineCommand_of_not_busy hown, runHz, calResult_latchCommand hown, latchCommand_host,
    bcd8_eq_bcd, frequency_eq, cmdWord_eq_word]
  rfl

end Sys2Proof.Machine
end
section
/-! PROOFS. The exceptions: the acceptance of a command (O20, O22) and the recovery (O45–O47). `CommandEffect` lists what
a CMD write can do; that it leaves a recovery alone, and while Resetting the sequence too, is read from that list. -/

namespace Sys2Proof.Machine

open Sys2Proof.Spec (answered rejected calculated transferred booked)

/-! ### What is rejected at acceptance (R164) -/

/-- A completion at acceptance of the word just latched. -/
theorem finish_latchCommand_eq_rejected {s : State} (hb : s.busy = false) {code : BitVec 4} {n : Nat}
    (hcode : code = BitVec.ofNat 4 n) (w : Word) : finish code 0 0 (latchCommand w s) = rejected n w s := by
  have hlatched : (latchCommand w s).busy = false := hb
  rw [finish_of_not_busy hlatched, hcode]
  rfl

theorem busCommand_of_resetting {s : State} (hb : s.busy = false) (hres : s.rpe.resetting = true) (w : Word) (p : Bool)
    (run : State → State) : busCommand w p run s = rejected 5 w s := by
  rw [busCommand, hb, acceptBus, latchCommand_rpe_resetting, hres, ← finish_latchCommand_eq_rejected hb rfl]
  rfl

theorem busCommand_of_baud_zero {s : State} (hb : s.busy = false) (hres : s.rpe.resetting = false)
    (hbaud : s.host.baud = 0) (w : Word) (p : Bool) (run : State → State) : busCommand w p run s = rejected 4 w s := by
  rw [busCommand, hb, acceptBus, latchCommand_rpe_resetting, hres, latchCommand_host, if_pos hbaud,
    ← finish_latchCommand_eq_rejected hb rfl]
  rfl

/-- Settles O22: each of the six is a `busCommand` of its own word, and the two checks stand ahead of its own. -/
theorem busCommandsNeedAHealthyTimedDevice : Obligations.BusCommandsNeedAHealthyTimedDevice := by
  intro i w s hown henc _ hbus
  have hb : s.busy = false := (not_busy_iff s).2 hown
  have hexec : ∃ p run, exec i s = .next (busCommand w p run s) := by
    rcases hbus with ⟨n, a, rfl⟩ | ⟨a, rfl⟩ | ⟨a, rfl⟩ | ⟨n, rfl⟩ | ⟨n, rfl⟩ | rfl
    all_goals
      obtain rfl := Encoding.cmd.inj henc
      exact ⟨_, _, rfl⟩
  obtain ⟨p, run, he⟩ := hexec
  rw [he]
  exact ⟨fun hres => congrArg _ (busCommand_of_resetting hb hres w p run),
    fun hres hbaud => congrArg _ (busCommand_of_baud_zero hb hres hbaud w p run)⟩

/-! ### What a CMD write can do (R163, R164) -/

/-- What a bus command does between its acceptance and its sequence: nothing, or CFG_BLOCK's effect on the handle (R129),
or LOAD_CONFIG's on LAST_CKSUM (R131). -/
def FirstEffect (s t : State) : Prop := t = s ∨ t = clearHandle s ∨ ∃ ck, t = latchCksum ck s

/-- A CMD write is dropped, or rejected, or starts a sequence of a Healthy RPE, or calculates. -/
inductive CommandEffect (s : State) : State → Prop
  | dropped (hb : s.busy = true) : CommandEffect s (overrun s)
  | rejected (hb : s.busy = false) (code : Nat) (w : Word) : CommandEffect s (rejected code w s)
  | started (hb : s.busy = false) (hres : s.rpe.resetting = false) {w : Word} {u : State}
    (hu : FirstEffect (admitted w s) u) (l : List Descriptor) : CommandEffect s (startSeq .host l u)
  | calculated (hb : s.busy = false) (out : Word) (flags : CalFlags) (w : Word) (creepA creepB : Bool) :
    CommandEffect s { calculated out flags w s with
      st := { (calculated out flags w s).st with creepA := creepA, creepB := creepB } }

theorem busCommand_effect {s : State} (hb : s.busy = false) {w : Word} {run : State → State}
    (hrun : ∃ u l, FirstEffect (admitted w s) u ∧ run (admitted w s) = startSeq .host l u) (p : Bool) :
    CommandEffect s (busCommand w p run s) := by
  cases hres : s.rpe.resetting
  · by_cases hbaud : s.host.baud = 0
    · exact busCommand_of_baud_zero hb hres hbaud w p run ▸ .rejected hb 4 w
    · rw [busCommand_of_healthy ((not_busy_iff s).1 hb) hres hbaud]
      cases p
      · exact .rejected hb 4 w
      · obtain ⟨u, l, hu, he⟩ := hrun
        exact he ▸ .started hb hres hu l
  · exact busCommand_of_resetting hb hres w p run ▸ .rejected hb 5 w

theorem pipelineCommand_effect {s : State} (hb : s.busy = false) {w : Word} {run : State → State}
    (hrun : ∃ out flags, run (latchCommand w s) = calResult out flags (latchCommand w s)
      ∨ run (latchCommand w s) = keepCreepA (calResult out flags (latchCommand w s))
      ∨ run (latchCommand w s) = keepCreepB (calResult out flags (latchCommand w s))) :
    CommandEffect s (pipelineCommand w run s) := by
  have hown : s.st.seqOwner ≠ .host := (not_busy_iff s).1 hb
  obtain ⟨out, flags, he⟩ := hrun
  rw [pipelineCommand_of_not_busy hown]
  rcases he with he | he | he <;> rw [he, calResult_latchCommand hown]
  · exact .calculated hb out flags w s.st.creepA s.st.creepB
  · exact .calculated hb out flags w flags.creep s.st.creepB
  · exact .calculated hb out flags w s.st.creepA flags.creep

theorem exec_effect {i : Instr} {s t : State} (hi : i.IsCommand) (hb : s.busy = false) (h : exec i s = .next t) :
    CommandEffect s t := by
  obtain ⟨-, v, henc⟩ := hi
  cases i with
  | wireWrite | wireBroadcast | wireRead | wireBlock => cases henc
  | read | write | broadcast | blockRead =>
    obtain rfl := Host.Outcome.next.inj h
    exact busCommand_effect hb ⟨_, _, .inl rfl, rfl⟩ _
  | cfgBlock =>
    obtain rfl := Host.Outcome.next.inj h
    exact busCommand_effect hb ⟨_, _, .inr (.inl rfl), rfl⟩ _
  | loadConfig =>
    obtain rfl := Host.Outcome.next.inj h
    exact busCommand_effect hb ⟨_, _, .inr (.inr ⟨_, (latchCksum_admitted _ _ s).symm⟩), runLoadConfig_admitted _ s⟩ _
  | calrmsP =>
    obtain rfl := Host.Outcome.next.inj h
    exact pipelineCommand_effect hb ⟨_, _, .inr (.inl rfl)⟩
  | calrmsPb =>
    obtain rfl := Host.Outcome.next.inj h
    exact pipelineCommand_effect hb ⟨_, _, .inr (.inr rfl)⟩
  | hex2bcd | calrmsQ | calrmsQb | calrmsSa | calrmsSb | calrmsU | calrmsI1 | calrmsI2 | calrmsHz =>
    obtain rfl := Host.Outcome.next.inj h
    exact pipelineCommand_effect hb ⟨_, _, .inl rfl⟩

theorem commandWrite_effect {w : Word} {s t : State} (h : commandWrite w s = .next t) : CommandEffect s t := by
  cases hb : s.busy
  · unfold commandWrite at h
    split at h
    · next hd => exact exec_effect (decodeCmd_isCommand hd) hb h
    · obtain rfl := Host.Outcome.next.inj h
      exact badCommand_of_not_busy hb w ▸ .rejected hb 6 w
  · obtain rfl := Host.Outcome.next.inj ((commandWrite_of_busy hb w).symm.trans h)
    exact .dropped hb

theorem xfer_rpe (s : State) : (xfer s).rpe = s.rpe := by
  unfold xfer
  split
  · exact xferOf_rpe _ s
  · rfl

theorem startSeq_rpe (owner : Owner) (l : List Descriptor) (s : State) : (startSeq owner l s).rpe = s.rpe :=
  xfer_rpe _

/-- CMD_OVERRUN is the dropped write's flag alone. -/
theorem CommandEffect.cmdOverrun {s t : State} (h : CommandEffect s t) (hb : s.busy = false) :
    t.rpe.cmdOverrun = s.rpe.cmdOverrun := by
  cases h with
  | dropped hbusy => cases hb.symm.trans hbusy
  | rejected | calculated => rfl
  | started _ _ hu l =>
    rw [startSeq_rpe]
    rcases hu with rfl | rfl | ⟨ck, rfl⟩ <;> rfl

/-- Settles O20: a CMD write while BUSY = 1 is the overrun (`commandWrite_of_busy`); no other effect writes its flag. -/
theorem commandWhileBusyIsDropped : Obligations.CommandWhileBusyIsDropped := by
  intro w s hr
  have hwrite : agentStep (.hostWrite 0x00C 4 w) s = commandWrite w (answered .ack s) :=
    hostWrite_aligned hr (by decide) w
  rw [hwrite]
  refine ⟨fun hown => ?_, fun hown => ?_⟩
  · exact commandWrite_of_busy (s := answered .ack s) ((busy_iff s).2 hown) w
  · obtain ⟨t, ht⟩ := commandWrite_next w (answered .ack s)
    exact ⟨t, ht, (commandWrite_effect ht).cmdOverrun ((not_busy_iff s).2 hown)⟩

/-! ### What no host access touches (R171) -/

/-- HEALTH, the phase and all that a recovery waits for or reports stay, and so does the tracked offset mode. The
default proofs are for an update that leaves them alone. -/
structure KeepsRecovery (s t : State) : Prop where
  resetting : t.rpe.resetting = s.rpe.resetting := by rfl
  recPhase : t.st.recPhase = s.st.recPhase := by rfl
  lineLow : t.st.lineLow = s.st.lineLow := by rfl
  waitTicks : t.st.waitTicks = s.st.waitTicks := by rfl
  failCount : t.st.failCount = s.st.failCount := by rfl
  recCause : t.rpe.recCause = s.rpe.recCause := by rfl
  rxFifo : t.st.rxFifo = s.st.rxFifo := by rfl
  gapTicks : t.st.gapTicks = s.st.gapTicks := by rfl
  offsetMode : t.st.offsetMode = s.st.offsetMode := by rfl

theorem KeepsRecovery.trans {s t u : State} (h : KeepsRecovery s t) (g : KeepsRecovery t u) : KeepsRecovery s u where
  resetting := g.resetting.trans h.resetting
  recPhase := g.recPhase.trans h.recPhase
  lineLow := g.lineLow.trans h.lineLow
  waitTicks := g.waitTicks.trans h.waitTicks
  failCount := g.failCount.trans h.failCount
  recCause := g.recCause.trans h.recCause
  rxFifo := g.rxFifo.trans h.rxFifo
  gapTicks := g.gapTicks.trans h.gapTicks
  offsetMode := g.offsetMode.trans h.offsetMode

theorem keepsRecovery_execute (frame : List Byte) (n : Nat) (s : State) : KeepsRecovery s (execute frame n s) := by
  by_cases h : s.st.engState = .idle
  · rw [execute_of_idle h]
    exact {}
  · rw [execute_of_not_idle h]
    exact {}

theorem keepsRecovery_xfer (s : State) : KeepsRecovery s (xfer s) := by
  unfold xfer
  split
  · next d _ =>
    cases h : needsSwitch s d
    · rw [xferOf_plain h]
      exact KeepsRecovery.trans {} (keepsRecovery_execute _ _ _)
    · rw [xferOf_switch h]
      exact KeepsRecovery.trans {} (keepsRecovery_execute _ _ _)
  · exact {}

theorem keepsRecovery_startSeq (owner : Owner) (l : List Descriptor) (s : State) :
    KeepsRecovery s (startSeq owner l s) :=
  KeepsRecovery.trans {} (keepsRecovery_xfer _)

theorem FirstEffect.keepsRecovery {s t : State} (h : FirstEffect s t) : KeepsRecovery s t := by
  rcases h with rfl | rfl | ⟨ck, rfl⟩ <;> exact {}

theorem CommandEffect.keepsRecovery {s t : State} (h : CommandEffect s t) : KeepsRecovery s t := by
  cases h with
  | dropped | rejected | calculated => exact {}
  | started _ _ hu l =>
    have hadmitted := KeepsRecovery.trans (s := s) {} hu.keepsRecovery
    exact hadmitted.trans (keepsRecovery_startSeq _ l _)

/-- The sequence, its step and its owner stay, and the transaction under way. -/
structure KeepsSequence (s t : State) : Prop extends KeepsTransaction s t where
  seqOwner : t.st.seqOwner = s.st.seqOwner := by rfl
  seqList : t.st.seqList = s.st.seqList := by rfl
  seqStep : t.st.seqStep = s.st.seqStep := by rfl

theorem KeepsSequence.trans {s t u : State} (h : KeepsSequence s t) (g : KeepsSequence t u) : KeepsSequence s u where
  toKeepsTransaction := h.toKeepsTransaction.trans g.toKeepsTransaction
  seqOwner := g.seqOwner.trans h.seqOwner
  seqList := g.seqList.trans h.seqList
  seqStep := g.seqStep.trans h.seqStep

/-- While Resetting no command starts a sequence. -/
theorem CommandEffect.keepsSequence {s t : State} (h : CommandEffect s t) (hres : s.rpe.resetting = true) :
    KeepsSequence s t := by
  cases h with
  | dropped | rejected | calculated => exact {}
  | started _ hhealthy => cases hres.symm.trans hhealthy

/-- A CSR write leaves HEALTH and REC_CAUSE (R20, R27, R28). -/
theorem csrWrite_health (r : Csr) (w : Word) (s : State) :
    (csrWrite r w s).rpe.resetting = s.rpe.resetting ∧ (csrWrite r w s).rpe.recCause = s.rpe.recCause := by
  rcases csrWrite_cases r w s with ⟨-, he⟩ | ⟨-, he⟩ <;> rw [he]
  · exact ⟨rfl, rfl⟩
  · cases r <;> exact ⟨rfl, rfl⟩

theorem keepsRecovery_csrWrite (r : Csr) (w : Word) (s : State) : KeepsRecovery s (csrWrite r w s) := by
  obtain ⟨hst, -⟩ := csrWrite_results r w s
  obtain ⟨hres, hcause⟩ := csrWrite_health r w s
  exact ⟨hres, congrArg Hidden.recPhase hst, congrArg Hidden.lineLow hst, congrArg Hidden.waitTicks hst,
    congrArg Hidden.failCount hst, hcause, congrArg Hidden.rxFifo hst, congrArg Hidden.gapTicks hst,
    congrArg Hidden.offsetMode hst⟩

theorem keepsSequence_csrWrite (r : Csr) (w : Word) (s : State) : KeepsSequence s (csrWrite r w s) := by
  obtain ⟨hst, -⟩ := csrWrite_results r w s
  exact ⟨⟨congrArg Hidden.engState hst, congrArg Hidden.txFrame hst, congrArg Hidden.txIdx hst,
    congrArg Hidden.expN hst⟩, congrArg Hidden.seqOwner hst, congrArg Hidden.seqList hst, congrArg Hidden.seqStep hst⟩

/-- A host access only answers, or it writes a CSR, or it writes CMD. -/
theorem hostAccess_cases {e : Event} {s t : State}
    (he : (∃ off size, e = .hostRead off size) ∨ ∃ off size w, e = .hostWrite off size w)
    (h : stepRunning e s = .next t) :
    (∃ b, t = respond b s) ∨ (∃ r w, t = csrWrite r w (respond .ack s))
      ∨ ∃ w, commandWrite w (respond .ack s) = .next t := by
  rcases he with ⟨off, size, rfl⟩ | ⟨off, size, w, rfl⟩
  · obtain rfl := Host.Outcome.next.inj h
    rcases hostRead_cases off size s with ⟨-, he⟩ | ⟨-, he⟩ <;> exact .inl ⟨_, he⟩
  · simp only [stepRunning, hostWrite, hostWriteTo] at h
    split_ifs at h
    · exact .inr (.inr ⟨w, h⟩)
    · exact .inr (.inl ⟨_, w, (Host.Outcome.next.inj h).symm⟩)
    · exact .inl ⟨_, (Host.Outcome.next.inj h).symm⟩

/-- The answer of the bus interface is no part of either frame. -/
theorem hostAccess_keeps {e : Event} {s t : State}
    (he : (∃ off size, e = .hostRead off size) ∨ ∃ off size w, e = .hostWrite off size w)
    (h : stepRunning e s = .next t) :
    KeepsRecovery s t ∧ (s.rpe.resetting = true → KeepsSequence s t) := by
  have hanswer : ∀ b, KeepsRecovery s (respond b s) ∧ KeepsSequence s (respond b s) := fun _ => ⟨{}, {}⟩
  obtain ⟨hrec, hseq⟩ := hanswer .ack
  rcases hostAccess_cases he h with ⟨b, rfl⟩ | ⟨r, w, rfl⟩ | ⟨w, hw⟩
  · exact (hanswer b).imp_right fun hs _ => hs
  · exact ⟨hrec.trans (keepsRecovery_csrWrite r w _), fun _ => hseq.trans (keepsSequence_csrWrite r w _)⟩
  · have heffect := commandWrite_effect hw
    exact ⟨hrec.trans heffect.keepsRecovery, fun hres => hseq.trans (heffect.keepsSequence hres)⟩

/-- Settles O47: a host access answers, writes a CSR or writes CMD, and each keeps both frames (`hostAccess_keeps`). -/
theorem hostCannotTouchARecovery : Obligations.HostCannotTouchARecovery := by
  intro e s t hr he h
  rw [agentStep_running hr] at h
  obtain ⟨hrec, hseq⟩ := hostAccess_keeps he h
  refine ⟨hrec.resetting, hrec.recPhase, hrec.lineLow, hrec.waitTicks, hrec.failCount, hrec.recCause, hrec.rxFifo,
    hrec.gapTicks, hrec.offsetMode, fun hres => ?_⟩
  obtain ⟨⟨heng, hframe, hidx, hexp⟩, hown, hlist, hstep⟩ := hseq hres
  exact ⟨hown, hlist, hstep, heng, hframe, hidx, hexp⟩

/-! ### The phases of a recovery (R169) -/

/-- With the engine IDLE and no descriptor waiting, an engine step is the recovery sequencer's. -/
theorem engineStep_of_nothing_waiting {s : State} (hidle : s.st.engState = .idle)
    (hnone : s.st.seqList[s.st.seqStep]? = none) (txDone : Bool) : engineStep txDone s = .next (stepRecovery s) := by
  have hcur : currentDescriptor s = none := hnone
  simp only [engineStep, hidle, stepIdle_eq, hcur]

/-- REINIT has cleared and latched, and the reload, RECOVERY's, stands at its first descriptor (R169). The
checksum and the list are variables here: no proof has to look into them. -/
def atReload (ck : Word) (l : List Descriptor) (s : State) : State :=
  { s with
    rpe := { s.rpe with lastCksum := ck }
    st := { s.st with
      offsetMode := .unknown, blkValid := false, blkCount := 0, gapTicks := 0, rxFifo := []
      recPhase := .reload, seqOwner := .recovery, seqStep := 0
      seqList := l } }

theorem startSeq_recovery_eq {s : State} (hidle : s.st.engState = .idle) (ck : Word) {l : List Descriptor}
    {d : Descriptor} {ds : List Descriptor} (hl : l = d :: ds) :
    startSeq .recovery l (latchCksum ck (reinitialise s)) = transferred d (atReload ck l s) := by
  have hidle' : (latchCksum ck (reinitialise s)).st.engState = .idle := hidle
  rw [hl, startSeq_eq_transferred hidle']
  rfl

/-- REINIT's step transfers the first write of the reload (R132, R169). -/
theorem startReload_eq {s : State} (hidle : s.st.engState = .idle) :
    startReload s = transferred ⟨.write, 0x00, s.host.cfgImage[0], .config⟩
      (atReload (configCksum s.env.cfg s.host.cfgImage) (lcList s.env.cfg s.host.uart s.host.cfgImage) s) := by
  rw [startReload]
  exact startSeq_recovery_eq hidle _ (lcList_eq_cons _ _ _)

/-- Settles O45: the step is the recovery sequencer's (`engineStep_of_nothing_waiting`), phase by phase. -/
theorem recoveryPhasesFollow : Obligations.RecoveryPhasesFollow := by
  intro txDone s hr hidle hnone
  rw [agentStep_running hr]
  simp only [stepRunning, engineStep_of_nothing_waiting hidle hnone]
  refine ⟨fun hs => ?preHigh, fun hs => ?low, fun hs => ?postWait, fun hs => ?reinit⟩
  case reinit =>
    have hstep : stepRecovery s = startReload s := by simp only [stepRecovery, hs]
    rw [hstep, startReload_eq hidle, atReload]
  all_goals simp only [stepRecovery, hs, elapsed_iff_reached]

/-! ### The end of a recovery (R170) -/

theorem tripsHealth_of_recovery {s : State} (h : s.st.seqOwner = .recovery) : tripsHealth s = false := by
  simp [tripsHealth, h]

/-- A reaction to one of the reload's transactions is the whole transaction end: only a host command's failures are
counted (R117, R168). -/
theorem txEnd_of_recovery {s t : State} (hown : s.st.seqOwner = .recovery)
    (h : sequencerReacts (bookOutcome (toIdle s)) = some t) : txEnd s = .next t := by
  rw [txEnd_of_reaction h, tripsHealth_of_recovery hown]
  rfl

/-- Settles O46: the sequencer's reaction is the end of the recovery, behind the last descriptor or a failing one. -/
theorem recoveryEnds : Obligations.RecoveryEnds := by
  intro d s hown hcur settled
  refine ⟨fun hlast hgood => ?_, fun hfail => ?_⟩
  · have hdone : ¬ (advance (booked d s)).st.seqStep < (advance (booked d s)).st.seqList.length := hlast.not_lt
    have hown' : (advance (booked d s)).st.seqOwner = .recovery := hown
    rw [txEnd_of_recovery hown (t := endRecovery true 0 (advance (booked d s)))]
    · simp only [endRecovery, Bool.or_true, Bool.not_true, Bool.or_false]
      rfl
    · rw [sequencerReacts_of_good hcur hgood, continueSequence, if_neg hdone, sequenceSuccess, hown']
  · have hown' : (booked d s).st.seqOwner = .recovery := hown
    rw [txEnd_of_recovery hown (t := endRecovery false (errOf s.st.outcome) (booked d s))]
    · simp only [endRecovery, Bool.or_true, Bool.not_false, Bool.or_false, errOf_eq_errorOf hfail]
      rfl
    · rw [sequencerReacts_of_failing hcur hfail, sequenceFail, hown']

end Sys2Proof.Machine
end
section
/-! PROOFS. The machine under `rst` (O11): every step there is `holdReset` with an answer on the bus, so that one lemma says
what it leaves behind, and a second what a host read is answered. -/

namespace Sys2Proof.Machine

open Sys2Proof.Spec (readAt)

/-- Whatever the agent, the step holds the reset values, and at most the bus takes an answer; the level of `rst` falls only by
its own event (R182). -/
theorem stepInReset_eq_respond_holdReset (e : Event) (s : State) :
    ∃ b level, stepInReset e s = respond b (holdReset level s) ∧ (level = false ↔ e = .rst false) := by
  cases e with
  | hostRead off size =>
    rcases hostRead_cases off size (holdReset true s) with ⟨-, he⟩ | ⟨-, he⟩
    all_goals exact ⟨_, true, he, by simp⟩
  | hostWrite off size w => exact ⟨_, true, rfl, by simp⟩
  | engine | channelTx | channelRx | tick => exact ⟨s.env.bus, true, rfl, by simp⟩
  | rst level => exact ⟨s.env.bus, level, rfl, by simp⟩

/-- An aligned host read under `rst` is answered with the register's reset value, not with its word in `s` (R182). -/
theorem stepInReset_hostRead_bus {off : BitVec 12} (ha : off.toNat % 4 = 0) (s : State) :
    (stepInReset (.hostRead off 4) s).env.bus = .data (readAt State.reset off) := by
  have hreset : csrRead (holdReset true s) (csrAt off) = csrRead State.reset (csrAt off) := csrRead_congr rfl rfl rfl _
  rw [stepInReset, hostRead, if_pos (accessOk_aligned ha), respond_env_bus, hreset]

/-- Settles O11: the step is `holdReset` with an answer (`stepInReset_eq_respond_holdReset`), and a read's answer is the reset
value (`stepInReset_hostRead_bus`). -/
theorem resetHoldsTheMachine : Obligations.ResetHoldsTheMachine := by
  intro e s hr
  obtain ⟨b, level, hstep, hlevel⟩ := stepInReset_eq_respond_holdReset e s
  have hrst : (stepInReset e s).env.rst = level := by rw [hstep, respond_env_rst, holdReset_env_rst]
  refine ⟨_, agentStep_in_reset hr e, ?host, ?rpe, ?st, ?sent, ?cfg, fun hne => ?held, fun he => ?falls, ?read⟩
  case held => exact hrst.trans (Bool.eq_true_of_not_eq_false (mt hlevel.1 hne))
  case falls => exact hrst.trans (hlevel.2 he)
  case read =>
    rintro off rfl ha
    exact stepInReset_hostRead_bus ha s
  all_goals rw [hstep]; rfl

end Sys2Proof.Machine
end
